-- ==== Sys2Proof/Word.lean ====
section
/-! DEFINITION. The word types of WTCORE: bytes, the 64-bit round-key cell, byte strings and decoded texts. -/

namespace Sys2Proof

/-- One byte of a buffer or byte string (20_memory.md R50). -/
abbrev Byte := BitVec 8

/-- One cell of the round-key file, `DIM_MAX` = 64 bits wide (10_state.md R23). -/
abbrev Word := BitVec 64

/-- A byte string. -/
abbrev Bytes := List Byte

/-- A decoded text: its Unicode scalar values in order (43_external_primitives.md R174). -/
abbrev Text := List Nat

end Sys2Proof
end

