-- ==== Sys2Proof/Syntax.lean ====
section
/-! DEFINITION. The operations of WTCORE as syntax: one constructor per row of spec/opcode_table.json. -/

namespace Sys2Proof

/-- The two documented round-function variants (40_blockcipher.md R102 to R104): `standard` is `CFG.VAR = 0`, the AND
combiner; `alternate` is `CFG.VAR = 1`, the XOR combiner. -/
inductive Variant
  | standard
  | alternate
deriving DecidableEq, Repr, Inhabited

/-- The ten host commands (30_encoding.md R73) and the six sequencer steps (R82). -/
inductive Instr
  /-- `NOP` (40_blockcipher.md R114). -/
  | nop
  /-- `BC.CFG bs, ks, var` (40_blockcipher.md R110): sizes in bits, and the variant. -/
  | bcCfg (bs ks : Nat) (var : Variant)
  /-- `BC.REKEY` (40_blockcipher.md R111). -/
  | bcRekey
  /-- `BC.ENC` (40_blockcipher.md R112). -/
  | bcEnc
  /-- `BC.DEC` (40_blockcipher.md R113). -/
  | bcDec
  /-- `CS.ENC` (41_counterstream.md R129). -/
  | csEnc
  /-- `CS.DEC` (41_counterstream.md R133). -/
  | csDec
  /-- `HS.START` (42_handshake.md R141). -/
  | hsStart
  /-- `HS.RX` (42_handshake.md R142). -/
  | hsRx
  /-- `HS.ABORT` (42_handshake.md R143). -/
  | hsAbort
  /-- Sequencer step `VALIDATE_REQUEST` (42_handshake.md R150). -/
  | stepValidateRequest
  /-- Sequencer step `DECRYPT_SESSION_KEY` (42_handshake.md R151). -/
  | stepDecryptSessionKey
  /-- Sequencer step `DECRYPT_PAYLOAD` (42_handshake.md R153). -/
  | stepDecryptPayload
  /-- Sequencer step `VERIFY_SIGNATURE` (42_handshake.md R154). -/
  | stepVerifySignature
  /-- Sequencer step `VERIFY_HASH` (42_handshake.md R155). -/
  | stepVerifyHash
  /-- Sequencer step `BUILD_RESPONSE` (42_handshake.md R157). -/
  | stepBuildResponse
deriving DecidableEq, Repr

end Sys2Proof
end

