-- ==== Sys2Proof/Config.lean ====
section
/-! DEFINITION. What is fixed for the machine: the numeric parameters the spec gives (00_scope.md section 3), the types of
the collaborators' answers, and the open parameters and free values, as constants with no body. -/

namespace Sys2Proof

/-- One entry of the block list: a width in bits and a value (10_state.md R30). -/
structure Block where
  w : Nat
  v : Nat
deriving DecidableEq, Repr, Inhabited

/-- What `parse_request` answers on success (43_external_primitives.md R175). -/
structure Request where
  sk : Nat
  pl : Nat
  plbits : Nat
deriving DecidableEq, Repr, Inhabited

/-- What `parse_keydata` answers on success (43_external_primitives.md R177). -/
structure KeyData where
  key : Nat
  tod : Nat
  canon : Bytes
deriving DecidableEq, Repr, Inhabited

/-- What `parse_payload` answers on success (43_external_primitives.md R178). -/
structure Payload where
  adCanon : Bytes
  adHash : Nat
  sig : Nat
deriving DecidableEq, Repr, Inhabited

namespace Config

/-- `num_rounds` (00_scope.md R7). -/
abbrev numRounds : Nat := 72

/-- `DIM_MAX` (00_scope.md section 3). -/
abbrev dimMax : Nat := 64

/-- `KEY_MAX` (00_scope.md section 3). -/
abbrev keyMax : Nat := 256

/-- `FRAME_MAX`, the capacity of `RXBUF` and `TXBUF` in bytes (00_scope.md section 3). -/
abbrev frameMax : Nat := 100000008

/-- The largest payload an 8-digit length can state (30_encoding.md R84, R89). -/
abbrev bodyMax : Nat := 99999999

/-- The parameter `Z`, bit `j` being `Z[j]`: OPEN, no value is fixed (00_scope.md R10; log 1). -/
opaque z : BitVec 62

/-- The default the spec proposes for `Z`, `Z[0]` in bit 0 (00_scope.md R10). No rule and no meaning uses it; it instantiates
`Z` where the spec's test vectors are recomputed. -/
def zDefault : BitVec 62 := 0x3DC94C3A046D678B#62

/-- The parameter `PROTO_VARIANT`: OPEN, no value is fixed (41_counterstream.md R128; log 1). -/
opaque protoVariant : Variant

/-- `parse_request` where `State.env.codec` lists no answer: OPEN (43_external_primitives.md R175; log 2). -/
opaque parseRequest : Bytes → Option Request

/-- `parse_keydata` where `State.env.codec` lists no answer: OPEN (43_external_primitives.md R177; log 2). -/
opaque parseKeydata : Text → Option KeyData

/-- `parse_payload` where `State.env.codec` lists no answer: OPEN (43_external_primitives.md R178; log 2). -/
opaque parsePayload : Text → Option Payload

/-- `resp_canon` where `State.env.codec` lists no answer: OPEN (43_external_primitives.md R179; log 2). -/
opaque respCanon : BitVec 256 → Bytes

/-- `build_response` where `State.env.codec` lists no answer: OPEN (43_external_primitives.md R179; log 2). -/
opaque buildResponse : BitVec 256 → Nat → Bytes

/-- The `n`-th free sample of port `TOD_US` (43_external_primitives.md R181; log 3). -/
opaque todSample : Nat → BitVec 64

/-- The `n`-th free draw of port `RNG256` (43_external_primitives.md R180; log 4). -/
opaque rngDraw : Nat → BitVec 256

/-- `modpow(base, exponent, 0)`, which the spec calls undefined: a free value (43_external_primitives.md R170; log 9). -/
opaque modpowZero : Nat → Nat → Nat

/-- Cell `i` of `CBLK` where no operation has written it: a free value (10_state.md R30; log 10). -/
opaque unlistedBlock : Nat → Block

end Config

end Sys2Proof
end

