-- ==== Sys2Proof/Machine/State.lean ====
section
/-! DEFINITION. The state of one WTCORE (10_state.md R20), the host's accesses and the other events, the reset state, and
the reasons a step could stop. -/

namespace Sys2Proof.Machine

open Sys2Proof

/-- `CFG` (10_state.md R21). -/
structure Cfg where
  bs : BitVec 8
  ks : BitVec 12
  var : Variant
deriving DecidableEq, Repr

/-- The states of the handshake state machine (42_handshake.md R140; codes in 30_encoding.md R82). -/
inductive HState
  | idle
  | awaitRequest
  | validateRequest
  | decryptSessionKey
  | decryptPayload
  | verifySignature
  | verifyHash
  | buildResponse
  | sent
  | closed
deriving DecidableEq, Repr

/-- The six typed errors (60_exceptions.md R190). -/
inductive WtError
  | domainError
  | framingError
  | keyRecoveryError
  | payloadDecodeError
  | signatureInvalid
  | sessionKeyHashMismatch
deriving DecidableEq, Repr

/-- What `RES` records of the latest command (10_state.md R42). -/
inductive CmdResult
  | ok
  | error (e : WtError)
  | rejected
deriving DecidableEq, Repr

/-- A byte buffer of the block (20_memory.md R50 (3)) as its bytes that are not 0, by address, addresses strictly rising. -/
abbrev Memory := List Host.Cell

/-- The value of a register as one host access moves it (20_memory.md R50, 92_eei_decisions.md D31). -/
inductive RegValue
  | number (n : Nat)
  | bytes (b : Bytes)
  | blocks (l : List Block)
deriving DecidableEq, Repr

/-- The register numbers a host may not write: the read-only registers and the reserved numbers, which are
`0x07, 0x0D, 0x0E, 0x0F, 0x1B, .., 0x1F` in that order (30_encoding.md R80). -/
inductive UnwritableReg
  | res
  | status
  | cfg
  | dout
  | mlen
  | hstate
  | herr
  | txlen
  | txbuf
  | newkey
  | reserved (i : Fin 9)
deriving DecidableEq, Repr

/-- A host register write: each writable register with a value of its own width, whole (30_encoding.md R80; log 16). -/
inductive HostWrite
  | cmd (w : BitVec 32)
  | key (v : BitVec 256)
  | din (v : BitVec 128)
  | nonce (v : BitVec 128)
  | msg (v : Nat)
  | cbn (v : Nat)
  | cblk (l : List Block)
  | pubE (v : Nat)
  | pubN (v : Nat)
  | privD (v : Nat)
  | privN (v : Nat)
  | rxlen (v : Nat)
  | rxbuf (b : Bytes)
  | unwritable (r : UnwritableReg)
deriving DecidableEq, Repr

/-- A host access: a register write, or a read by register number (30_encoding.md R80). -/
inductive HostAccess
  | write (w : HostWrite)
  | read (n : BitVec 5)
deriving DecidableEq, Repr

/-- What can happen next between two operations: a host access is served, the sequencer gets its turn (the directive
`STEP` of 30_encoding.md R94), or `RESET` (70_reset_and_hazards.md R215). -/
inductive Event
  | host (a : HostAccess)
  | sequencer
  | reset
deriving DecidableEq, Repr

/-- Answers of the codec collaborators listed as data; an argument not listed is answered by the functions of `Config`
(43_external_primitives.md R175 to R179, R185; log 2). -/
structure Codec where
  requests : List (Bytes × Option Request)
  keydata : List (Text × Option KeyData)
  payloads : List (Text × Option Payload)
  canons : List (BitVec 256 × Bytes)
  responses : List ((BitVec 256 × Nat) × Bytes)
deriving DecidableEq, Repr

/-- The model's own fields: what stands around WTCORE. They are no state of WTCORE (10_state.md R20, R46) and `RESET` leaves
them (70_reset_and_hazards.md R216, R218). -/
structure Env where
  /-- The parameter `Z`, bit `j` being `Z[j]` (00_scope.md R10). -/
  z : BitVec 62
  /-- The parameter `PROTO_VARIANT` (41_counterstream.md R128). -/
  protoVariant : Variant
  /-- The codec's listed answers. -/
  codec : Codec
  /-- Samples port `TOD_US` delivers next (43_external_primitives.md R181). -/
  todQueue : List (BitVec 64)
  /-- How many free samples of `TOD_US` were taken. -/
  todDraws : Nat
  /-- Draws port `RNG256` delivers next (43_external_primitives.md R180). -/
  rngQueue : List (BitVec 256)
  /-- How many free draws of `RNG256` were taken. -/
  rngDraws : Nat
  /-- Pending events, oldest first. -/
  inbox : List Event
  /-- The value the latest host read returned. -/
  rdata : RegValue
deriving DecidableEq, Repr

/-- The state of one WTCORE instance (10_state.md R20), and `env`, the model's own. -/
structure State where
  /-- `CFG` (R21). -/
  cfg : Cfg
  /-- `KEY` (R22). -/
  key : BitVec 256
  /-- `RK[0..71]` (R23); it has 72 entries in every reachable state (R48 (a)). -/
  rk : List Word
  /-- `KVALID` (R24). -/
  kvalid : Bool
  /-- `DIN` (R25). -/
  din : BitVec 128
  /-- `DOUT` (R25). -/
  dout : BitVec 128
  /-- `NONCE` (R27). -/
  nonce : BitVec 128
  /-- `MSG` (R29). -/
  msg : Nat
  /-- `MLEN` (R29). -/
  mlen : Nat
  /-- `CBLK`, the cells written so far (R30). -/
  cblk : List Block
  /-- `CBN` (R30). -/
  cbn : Nat
  /-- `HSTATE` (R31). -/
  hstate : HState
  /-- `HERR` (R32); `none` is code 0. -/
  herr : Option WtError
  /-- `PUB_E` (R33). -/
  pubE : Nat
  /-- `PUB_N` (R33). -/
  pubN : Nat
  /-- `PRIV_D` (R33). -/
  privD : Nat
  /-- `PRIV_N` (R33). -/
  privN : Nat
  /-- `RXBUF` (R34). -/
  rxbuf : Memory
  /-- `RXLEN` (R34). -/
  rxlen : Nat
  /-- `RQ_SK` (R35). -/
  rqSk : Nat
  /-- `RQ_PL` (R35). -/
  rqPl : Nat
  /-- `RQ_PLBITS` (R35). -/
  rqPlbits : Nat
  /-- `KD_KEY` (R36). -/
  kdKey : Nat
  /-- `KD_TOD` (R36). -/
  kdTod : Nat
  /-- `KD_CANON` (R36). -/
  kdCanon : Bytes
  /-- `AD_CANON` (R37). -/
  adCanon : Bytes
  /-- `AD_HASH` (R37). -/
  adHash : Nat
  /-- `SIG` (R37). -/
  sig : Nat
  /-- `SIGOK` (R38). -/
  sigok : Bool
  /-- `HASHOK` (R38). -/
  hashok : Bool
  /-- `NEWKEY` (R39). -/
  newkey : BitVec 256
  /-- `TXBUF` (R40). -/
  txbuf : Memory
  /-- `TXLEN` (R40). -/
  txlen : Nat
  /-- `TXVALID` (R40). -/
  txvalid : Bool
  /-- `RES` (R42). -/
  res : CmdResult
  /-- `STATUS.ILL` (R43). -/
  ill : Bool
  /-- `TOD_LAST` (R44). -/
  todLast : BitVec 64
  /-- The model's own fields. -/
  env : Env
deriving DecidableEq, Repr

/-- A machine fault. WTCORE has none: every reachable combination of state and input has a defined outcome
(70_reset_and_hazards.md R234), so there is no constructor. -/
inductive Fault
deriving DecidableEq, Repr

/-- A step without a meaning. -/
inductive Refusal
  /-- An instruction the model gives no meaning yet; raised by an arm of `exec` only. Safe: nothing runs. No arm raises it. -/
  | notModelled (mnemonic : String)
deriving DecidableEq, Repr

/-- The environment before any input has been given: the open parameters as `Config` leaves them, nothing listed, nothing
pending (log 1 to 5). -/
def Env.initial : Env where
  z := Config.z
  protoVariant := Config.protoVariant
  codec := ⟨[], [], [], [], []⟩
  todQueue := []
  todDraws := 0
  rngQueue := []
  rngDraws := 0
  inbox := []
  rdata := .number 0

/-- The state after `RESET`: the table of 10_state.md R47 (70_reset_and_hazards.md R216). -/
def State.reset : State where
  cfg := ⟨0, 0, .standard⟩
  key := 0
  rk := List.replicate Config.numRounds 0
  kvalid := false
  din := 0
  dout := 0
  nonce := 0
  msg := 0
  mlen := 0
  cblk := []
  cbn := 0
  hstate := .idle
  herr := none
  pubE := 0
  pubN := 0
  privD := 0
  privN := 0
  rxbuf := []
  rxlen := 0
  rqSk := 0
  rqPl := 0
  rqPlbits := 0
  kdKey := 0
  kdTod := 0
  kdCanon := []
  adCanon := []
  adHash := 0
  sig := 0
  sigok := false
  hashok := false
  newkey := 0
  txbuf := []
  txlen := 0
  txvalid := false
  res := .ok
  ill := false
  todLast := 0
  env := Env.initial

end Sys2Proof.Machine
end

