-- ==== Sys2Proof/Machine/Operands.lean ====
section
/-! DEFINITION. How operands are assembled: bit lengths, the fields of a message, byte orders, derived cipher parameters,
the nonce (00_scope.md, 20_memory.md section 2, 30_encoding.md R93, 41_counterstream.md R120, R121). -/

namespace Sys2Proof.Machine

open Sys2Proof

/-- `bitlen(v)` (00_scope.md R17): `bitlen(0) = 0`, else the `k` with `2^(k-1) <= v < 2^k`. -/
def bitlen (v : Nat) : Nat := if v = 0 then 0 else Nat.log2 v + 1

/-- `numBlocks = ceil(n / 128)` (41_counterstream.md R120). -/
def numBlocks (n : Nat) : Nat := (n + 127) / 128

/-- Field `i` of `SPLIT(V, nbits)` (41_counterstream.md R121): 128 bits cut from the most significant end, but for a final
partial field of `nbits mod 128` bits. -/
def splitField (v nbits i : Nat) : Block :=
  if i + 1 = numBlocks nbits ∧ nbits % 128 ≠ 0 then ⟨nbits % 128, v % 2 ^ (nbits % 128)⟩
  else ⟨128, (v >>> (nbits - 128 * (i + 1))) % 2 ^ 128⟩

/-- `SPLIT(V, nbits)` (41_counterstream.md R121, 20_memory.md R55). -/
def split (v nbits : Nat) : List Block := (List.range (numBlocks nbits)).map (splitField v nbits)

/-- `le_bytes(v)`: the minimal little-endian byte string, `ceil(bitlen(v)/8)` bytes (43_external_primitives.md R172,
20_memory.md R56). -/
def leBytes (v : Nat) : Bytes := (List.range ((bitlen v + 7) / 8)).map fun j => BitVec.ofNat 8 (v >>> (8 * j))

/-- `le_int(B) = sum of B[j] * 256^j` (43_external_primitives.md R173). -/
def leInt : Bytes → Nat
  | [] => 0
  | b :: bs => b.toNat + 256 * leInt bs

/-- `dim = CFG.BS / 2` (00_scope.md R8). -/
def Cfg.dim (c : Cfg) : Nat := c.bs.toNat / 2

/-- `m = CFG.KS / dim`, the number of key words (00_scope.md R8). -/
def Cfg.m (c : Cfg) : Nat := c.ks.toNat / c.dim

/-- `valid_cfg(bs, ks)` (00_scope.md R11). -/
def validCfg (bs ks : Nat) : Bool :=
  decide (bs % 2 = 0) && decide (8 ≤ bs / 2) && decide (bs / 2 ≤ Config.dimMax) && decide (ks % (bs / 2) = 0)
    && decide (1 ≤ ks / (bs / 2)) && decide (ks / (bs / 2) ≤ Config.numRounds) && decide (ks ≤ Config.keyMax)

/-- Key word `i`: `(master_key >> (i*dim)) mod 2^dim` (20_memory.md R53, 30_encoding.md R93). -/
def keyWord (dim key i : Nat) : Nat := (key >>> (i * dim)) % 2 ^ dim

/-- `L = block >> dim` (20_memory.md R54). -/
def leftHalf (dim block : Nat) : Nat := block >>> dim

/-- `R = block mod 2^dim` (20_memory.md R54). -/
def rightHalf (dim block : Nat) : Nat := block % 2 ^ dim

/-- `(L << dim) | R` (20_memory.md R54). -/
def joinHalves (dim : Nat) (lr : Nat × Nat) : Nat := (lr.1 <<< dim) ||| lr.2

/-- The nonce of a timestamp: `t` in the upper 64 bits, the lower 64 bits zero (41_counterstream.md R126). -/
def nonceOf (t : BitVec 64) : BitVec 128 := t ++ 0#64

/-- The configuration of the protocol, `(128, 256, PROTO_VARIANT)` (00_scope.md R9, 41_counterstream.md R128). -/
def protoCfg (v : Variant) : Cfg := ⟨128, 256, v⟩

end Sys2Proof.Machine
end

