-- ==== Sys2Proof/Machine/Cipher.lean ====
section
/-! DEFINITION. The round engine of the BC unit on naturals below `2^dim`: rotations, round functions, Feistel round, key
schedule, ENC and DEC (40_blockcipher.md R100 to R109, R115). `z` is the parameter `Z`, bit `j` being `Z[j]`. -/

namespace Sys2Proof.Machine

open Sys2Proof

/-- `ROL(x, s) = ((x << s) mod 2^dim) | (x >> (dim - s))` (R100). -/
def rol (dim x s : Nat) : Nat := ((x <<< s) % 2 ^ dim) ||| (x >>> (dim - s))

/-- `ROR(x, s) = ((x << (dim - s)) mod 2^dim) | (x >> s)` (R101). -/
def ror (dim x s : Nat) : Nat := ((x <<< (dim - s)) % 2 ^ dim) ||| (x >>> s)

/-- `F_AND` (R102). -/
def fAnd (dim x : Nat) : Nat := (rol dim x 1 &&& rol dim x 8) ^^^ rol dim x 2

/-- `F_XOR` (R103). -/
def fXor (dim x : Nat) : Nat := (rol dim x 1 ^^^ rol dim x 8) ^^^ rol dim x 2

/-- `F`: the round function in use (R104). -/
def roundFn (v : Variant) (dim x : Nat) : Nat :=
  match v with
  | .standard => fAnd dim x
  | .alternate => fXor dim x

/-- `FROUND(a, b, k) = (b ^ F(a) ^ k, a)` (R105). -/
def fround (v : Variant) (dim a b k : Nat) : Nat × Nat := (b ^^^ roundFn v dim a ^^^ k, a)

/-- `c = 2^dim - 4` (00_scope.md R8). -/
def roundConst (dim : Nat) : Nat := 2 ^ dim - 4

/-- `Z[j]` as a number, 0 or 1 (00_scope.md R10). -/
def zBit (z : BitVec 62) (j : Nat) : Nat := (z.getLsbD j).toNat

/-- `KS_SEED`: the `m` key words (R106). -/
def ksSeed (dim m key : Nat) : List Nat := (List.range m).map (keyWord dim key)

/-- `KS_STEP(i)` over the round keys `rk[0..i-1]` made so far (R107). -/
def ksStep (z : BitVec 62) (dim m i : Nat) (rk : List Nat) : Nat :=
  let t0 := ror dim (rk.getD (i - 1) 0) 3
  let t1 := if m = 4 then t0 ^^^ rk.getD (i - 3) 0 else t0
  let t2 := t1 ^^^ ror dim t1 1 ^^^ rk.getD (i - m) 0
  t2 ^^^ roundConst dim ^^^ zBit z ((i - m) % 62)

/-- `n` further steps of the recurrence, in increasing order of the index (R107). -/
def ksExtend (z : BitVec 62) (dim m : Nat) : Nat → List Nat → List Nat
  | 0, rk => rk
  | n + 1, rk => ksExtend z dim m n (rk ++ [ksStep z dim m rk.length rk])

/-- `KEYEXP` as a function: `KS_SEED`, then `KS_STEP(i)` for `i` from `m` to 71 (R115). -/
def keySchedule (z : BitVec 62) (dim m key : Nat) : List Nat :=
  ksExtend z dim m (Config.numRounds - m) (ksSeed dim m key)

/-- The round keys in cells of 64 bits (10_state.md R23). -/
def scheduleCells (z : BitVec 62) (dim m key : Nat) : List Word := (keySchedule z dim m key).map (BitVec.ofNat 64)

/-- One round of `ENC` on the halves `(L, R)` (R108). -/
def encRound (v : Variant) (dim : Nat) (lr : Nat × Nat) (k : Word) : Nat × Nat := fround v dim lr.1 lr.2 k.toNat

/-- One round of `DEC`: `(R, L) = FROUND(R, L, RK[RC])` (R109). -/
def decRound (v : Variant) (dim : Nat) (k : Word) (lr : Nat × Nat) : Nat × Nat := (fround v dim lr.2 lr.1 k.toNat).swap

/-- `ENC(p)`: the rounds in increasing order of the round key (R108). -/
def encBlock (v : Variant) (dim : Nat) (rk : List Word) (p : Nat) : Nat :=
  joinHalves dim (rk.foldl (encRound v dim) (leftHalf dim p, rightHalf dim p))

/-- `DEC(q)`: the rounds in decreasing order of the round key (R109). -/
def decBlock (v : Variant) (dim : Nat) (rk : List Word) (q : Nat) : Nat :=
  joinHalves dim (rk.foldr (decRound v dim) (leftHalf dim q, rightHalf dim q))

end Sys2Proof.Machine
end

