-- ==== Sys2Proof/Machine/Sha3.lean ====
section
/-! DEFINITION. The standard SHA3-512 (43_external_primitives.md R171, which names it: Keccak with capacity 1024, rate 576
bits, domain suffix 01, output 512 bits). PRESUMED from FIPS 202, which is outside the spec; compared with the digests the
spec prints (log 7). No table is written down: the rotations come from the walk of the lanes, the round constants from the
shift register. A sponge state is 25 lanes below `2^64`, the lane in column `x` of row `y` being entry `x + 5y`. -/

namespace Sys2Proof.Machine.Sha3

open Sys2Proof

/-- The state whose lane in column `x` of row `y` is `f x y`. -/
def ofLanes (f : Nat → Nat → Nat) : List Nat := (List.range 25).map fun i => f (i % 5) (i / 5)

/-- The lane in column `x` of row `y`, columns and rows counted round the square. -/
def laneAt (st : List Nat) (x y : Nat) : Nat := st.getD (x % 5 + 5 * (y % 5)) 0

/-- The exclusive or of each column's five lanes. -/
def columnSums (st : List Nat) : List Nat :=
  (List.range 5).map fun x => (List.range 5).foldl (fun sum y => sum ^^^ laneAt st x y) 0

/-- The step theta: each lane takes in its left column's sum and its right column's, the latter rotated by 1. -/
def mixColumns (st : List Nat) : List Nat :=
  let sums := columnSums st
  ofLanes fun x y => laneAt st x y ^^^ laneAt sums (x + 4) 0 ^^^ rol 64 (laneAt sums (x + 1) 0) 1

/-- Where the step pi takes the lane in column `x` of row `y`: to column `y` of row `2x + 3y`. -/
def carried (x y : Nat) : Nat × Nat := (y, (2 * x + 3 * y) % 5)

/-- The steps rho and pi at once, for the `n` lanes of the walk of rho from place `t` in column `x` of row `y` on, the lanes
placed so far in `out`. Rho rotates the lane at place `t` by the `(t+1)`-th triangular number and goes on where pi carries the
lane. -/
def walkLanes (st : List Nat) : Nat → Nat → Nat → Nat → List Nat → List Nat
  | 0, _, _, _, out => out
  | n + 1, t, x, y, out =>
    walkLanes st n (t + 1) (carried x y).1 (carried x y).2
      (out.set ((carried x y).1 + 5 * (carried x y).2) (rol 64 (laneAt st x y) ((t + 1) * (t + 2) / 2 % 64)))

/-- The steps rho and pi: the walk starts in column 1 of row 0 and visits every lane but that of column 0 of row 0, which stays
as it is. -/
def moveLanes (st : List Nat) : List Nat := walkLanes st 24 0 1 0 st

/-- One turn of the shift register of the round constants, `X^8 + X^6 + X^5 + X^4 + 1`. -/
def shiftRegister (r : Nat) : Nat := if r < 128 then 2 * r else (2 * r) ^^^ 0x171

/-- The round constant made of the next `n` outputs of the shift register `r`: the `j`-th of the seven goes to bit
`2^j - 1`. -/
def roundConstant : Nat → Nat → Nat
  | 0, _ => 0
  | n + 1, r => r % 2 * 2 ^ (2 ^ (6 - n) - 1) + roundConstant n (shiftRegister r)

/-- The steps chi and iota: each lane takes in where its right neighbour is 0 and the one beyond is 1; the lane in column 0 of
row 0 also takes in the round constant. -/
def mixRows (rc : Nat) (st : List Nat) : List Nat :=
  ofLanes fun x y =>
    (if x + y = 0 then rc else 0) ^^^ laneAt st x y ^^^ ((2 ^ 64 - 1 - laneAt st (x + 1) y) &&& laneAt st (x + 2) y)

/-- `n` rounds, with the shift register at `r` before the first. -/
def permute : Nat → Nat → List Nat → List Nat
  | 0, _, st => st
  | n + 1, r, st =>
    permute n (Nat.repeat shiftRegister 7 r) (mixRows (roundConstant 7 r) (moveLanes (mixColumns st)))

/-- The state after `n` further blocks of 72 bytes (the rate) of `input`, each taken into the first nine lanes and permuted in
24 rounds. -/
def absorbBlocks : Nat → Bytes → List Nat → List Nat
  | 0, _, st => st
  | n + 1, input, st =>
    absorbBlocks n (input.drop 72)
      (permute 24 1 (ofLanes fun x y => laneAt st x y ^^^ leInt (((input.take 72).drop (8 * (x + 5 * y))).take 8)))

/-- The domain suffix 01 and the padding 10*1 after `k` bytes of a block: its free bytes, with 6 added to the first and 128 to
the last. -/
def padding (k : Nat) : Bytes :=
  (List.range (72 - k)).map fun j => (if j = 0 then 0x06#8 else 0#8) + (if j + 1 = 72 - k then 0x80#8 else 0#8)

end Sys2Proof.Machine.Sha3

namespace Sys2Proof.Machine

open Sys2Proof

/-- `sha3_512(bytes)`: 64 bytes, the first eight lanes, least significant byte first (43_external_primitives.md R171). -/
def sha3_512 (bytes : Bytes) : Bytes :=
  let input := bytes ++ Sha3.padding (bytes.length % 72)
  let st := Sha3.absorbBlocks (bytes.length / 72 + 1) input (List.replicate 25 0)
  (List.range 64).map fun j => BitVec.ofNat 8 (st.getD (j / 8) 0 >>> (8 * (j % 8)))

end Sys2Proof.Machine
end

