-- ==== Sys2Proof/Machine/Collaborators.lean ====
section
/-! DEFINITION. The external primitives and collaborators as functions (43_external_primitives.md): modpow, UTF-8 decoding,
the codec, and the two ports. -/

namespace Sys2Proof.Machine

open Sys2Proof

/-- Square and multiply, `k` exponent bits left, least significant first; `acc` holds the product so far. -/
def modpowLoop (n : Nat) : Nat → Nat → Nat → Nat → Nat
  | 0, _, _, acc => acc
  | k + 1, b, e, acc => modpowLoop n k (b * b % n) (e / 2) (if e % 2 = 1 then acc * b % n else acc)

/-- `modpow(b, e, n) = (b^e) mod n` for `n >= 1` (R170); for `n = 0`, where the spec calls it undefined, a free value
(log 9). -/
def modpow (b e n : Nat) : Nat :=
  if n = 0 then Config.modpowZero b e else modpowLoop n (bitlen e) (b % n) e (1 % n)

/-- What a lead byte of UTF-8 announces: how many bytes follow, the range of the next one, the bits it carries; `none` for a
byte that cannot lead (R174: no overlong form, no surrogate, nothing above U+10FFFF; PRESUMED from RFC 3629, log 8). -/
def utf8Lead (b : Nat) : Option (Nat × Nat × Nat × Nat) :=
  if b < 0x80 then some (0, 0, 0, b)
  else if 0xC2 ≤ b ∧ b ≤ 0xDF then some (1, 0x80, 0xBF, b % 32)
  else if b = 0xE0 then some (2, 0xA0, 0xBF, b % 16)
  else if b = 0xED then some (2, 0x80, 0x9F, b % 16)
  else if 0xE1 ≤ b ∧ b ≤ 0xEF then some (2, 0x80, 0xBF, b % 16)
  else if b = 0xF0 then some (3, 0x90, 0xBF, b % 8)
  else if 0xF1 ≤ b ∧ b ≤ 0xF3 then some (3, 0x80, 0xBF, b % 8)
  else if b = 0xF4 then some (3, 0x80, 0x8F, b % 8)
  else none

/-- UTF-8 decoding with `need` bytes of the current character still to come, the next of them in `lo..hi`, and its bits so
far in `acc`. -/
def utf8Loop : Nat → Nat → Nat → Nat → Bytes → Option Text
  | 0, _, _, _, [] => some []
  | _ + 1, _, _, _, [] => none
  | 0, _, _, _, b :: bs =>
    match utf8Lead b.toNat with
    | none => none
    | some (0, _, _, c) => (utf8Loop 0 0 0 0 bs).map (c :: ·)
    | some (n + 1, lo, hi, c) => utf8Loop (n + 1) lo hi c bs
  | need + 1, lo, hi, acc, b :: bs =>
    if lo ≤ b.toNat ∧ b.toNat ≤ hi then
      if need = 0 then (utf8Loop 0 0 0 0 bs).map ((acc * 64 + b.toNat % 64) :: ·)
      else utf8Loop need 0x80 0xBF (acc * 64 + b.toNat % 64) bs
    else none

/-- `utf8_decode(bytes)`: the text, or `none` exactly when the bytes are not well-formed UTF-8 (R174). -/
def utf8Decode (bytes : Bytes) : Option Text := utf8Loop 0 0 0 0 bytes

/-- The answer listed for an argument, else the free one (log 2). -/
def answer {α β : Type} [DecidableEq α] (listed : List (α × β)) (a : α) (free : β) : β := (listed.lookup a).getD free

/-- `parse_request(body)` (R175): `none` when the bytes are not UTF-8 and for the empty body (42_handshake.md R150), else
the codec's answer (log 2, 21). -/
def Env.parseRequest (e : Env) (body : Bytes) : Option Request :=
  if body = [] then none
  else
    match utf8Decode body with
    | none => none
    | some _ => answer e.codec.requests body (Config.parseRequest body)

/-- `parse_keydata(text)` (R177): `none` for the empty text (42_handshake.md R151), else the codec's answer. -/
def Env.parseKeydata (e : Env) (text : Text) : Option KeyData :=
  if text = [] then none else answer e.codec.keydata text (Config.parseKeydata text)

/-- `parse_payload(text)` (R178): `none` for the empty text (42_handshake.md R153), else the codec's answer. -/
def Env.parsePayload (e : Env) (text : Text) : Option Payload :=
  if text = [] then none else answer e.codec.payloads text (Config.parsePayload text)

/-- `resp_canon(k)` (R179). -/
def Env.respCanon (e : Env) (k : BitVec 256) : Bytes := answer e.codec.canons k (Config.respCanon k)

/-- `build_response(k, h)` (R179). -/
def Env.buildResponse (e : Env) (k : BitVec 256) (h : Nat) : Bytes :=
  answer e.codec.responses (k, h) (Config.buildResponse k h)

/-- What port `TOD_US` delivers next, before its law is applied (R181; log 3). -/
def Env.todRaw (e : Env) : BitVec 64 :=
  match e.todQueue with
  | t :: _ => t
  | [] => Config.todSample e.todDraws

/-- The environment after one sample of `TOD_US`. -/
def Env.todTaken (e : Env) : Env :=
  match e.todQueue with
  | _ :: q => { e with todQueue := q }
  | [] => { e with todDraws := e.todDraws + 1 }

/-- What port `RNG256` delivers next (R180; log 4). -/
def Env.rngRaw (e : Env) : BitVec 256 :=
  match e.rngQueue with
  | k :: _ => k
  | [] => Config.rngDraw e.rngDraws

/-- The environment after one draw from `RNG256`. -/
def Env.rngTaken (e : Env) : Env :=
  match e.rngQueue with
  | _ :: q => { e with rngQueue := q }
  | [] => { e with rngDraws := e.rngDraws + 1 }

end Sys2Proof.Machine
end

