-- ==== Sys2Proof/Machine/Flags.lean ====
section
/-! DEFINITION. Codes and flags a host reads: the codes of HSTATE, HERR and RES, the bits of STATUS, the layout of CFG
(10_state.md R43, 30_encoding.md R80, R82, R83). -/

namespace Sys2Proof.Machine

open Sys2Proof

/-- The codes of `HSTATE` (30_encoding.md R82). -/
def HState.code : HState → BitVec 4
  | .idle => 0
  | .awaitRequest => 1
  | .validateRequest => 2
  | .decryptSessionKey => 3
  | .decryptPayload => 4
  | .verifySignature => 5
  | .verifyHash => 6
  | .buildResponse => 7
  | .sent => 8
  | .closed => 9

/-- The state a code names; codes 10 to 15 name none (30_encoding.md R82). -/
def HState.ofCode (c : BitVec 4) : Option HState :=
  [HState.idle, .awaitRequest, .validateRequest, .decryptSessionKey, .decryptPayload, .verifySignature, .verifyHash,
    .buildResponse, .sent, .closed].find? fun h => h.code == c

/-- The codes of the errors (30_encoding.md R83). -/
def WtError.code : WtError → BitVec 4
  | .domainError => 1
  | .framingError => 2
  | .keyRecoveryError => 3
  | .payloadDecodeError => 4
  | .signatureInvalid => 5
  | .sessionKeyHashMismatch => 6

/-- The codes of `RES`: 0 = OK, the error codes, 15 = rejected (10_state.md R42). -/
def CmdResult.code : CmdResult → BitVec 4
  | .ok => 0
  | .error e => e.code
  | .rejected => 15

/-- The code of `HERR`: 0 for none (10_state.md R32). -/
def herrCode : Option WtError → BitVec 4
  | none => 0
  | some e => e.code

/-- The variant bit as a number (10_state.md R21). -/
def variantBit : Variant → Nat
  | .standard => 0
  | .alternate => 1

/-- `STATUS.SEQ`: `HSTATE` is one of the six states in which the sequencer has a step (10_state.md R43). -/
def HState.seq (h : HState) : Bool :=
  decide (h = .validateRequest) || decide (h = .decryptSessionKey) || decide (h = .decryptPayload)
    || decide (h = .verifySignature) || decide (h = .verifyHash) || decide (h = .buildResponse)

/-- The states in which the host owns the BC and CS units: `IDLE`, `SENT`, `CLOSED` (30_encoding.md R79, R81). -/
def HState.unitsFree (h : HState) : Bool := decide (h = .idle) || decide (h = .sent) || decide (h = .closed)

/-- `STATUS` (10_state.md R43): bit 0 `KVALID`, 1 `ILL`, 2 `TXVALID`, 3 `SIGOK`, 4 `HASHOK`, 5 `SEQ`, 31:6 read 0. -/
def State.status (s : State) : BitVec 32 :=
  0#26 ++ BitVec.ofBool s.hstate.seq ++ BitVec.ofBool s.hashok ++ BitVec.ofBool s.sigok ++ BitVec.ofBool s.txvalid
    ++ BitVec.ofBool s.ill ++ BitVec.ofBool s.kvalid

/-- `CFG` as it reads back: `CFG[7:0] = BS`, `CFG[19:8] = KS`, `CFG[20] = VAR` (30_encoding.md R80). -/
def Cfg.readBack (c : Cfg) : Nat := c.bs.toNat + 2 ^ 8 * c.ks.toNat + 2 ^ 20 * variantBit c.var

end Sys2Proof.Machine
end

