-- ==== Sys2Proof/Machine/Stream.lean ====
section
/-! DEFINITION. The bit-exact stream functions of the CS unit over a keystream `ks`, `ks i` being `KSB(i)`
(41_counterstream.md R122 to R132). -/

namespace Sys2Proof.Machine

open Sys2Proof

/-- `XPART(v, w, i) = v ^ KSB(i)[127 : 128-w]` with `k = KSB(i)`; `w = 128` is `XFULL` (R123, R124). -/
def xpart (k w v : Nat) : Nat := v ^^^ (k >>> (128 - w))

/-- The XOR of a list of fields with the keystream from block `i` on, widths kept (R125). -/
def xorFields (ks : Nat → Nat) : Nat → List Block → List Block
  | _, [] => []
  | i, b :: bs => ⟨b.w, xpart (ks i) b.w b.v⟩ :: xorFields ks (i + 1) bs

/-- `STREAM_ENC(P, nonce)` (R132). -/
def streamEnc (ks : Nat → Nat) (p : Nat) : List Block := xorFields ks 0 (split p (bitlen p))

/-- `P = (P << w) | p ; n = n + w` over the entries of a list (R131). -/
def joinFields : Nat × Nat → List Block → Nat × Nat
  | pn, [] => pn
  | pn, b :: bs => joinFields ((pn.1 <<< b.w) ||| b.v, pn.2 + b.w) bs

/-- `STREAM_DEC(list, nonce)`: the joined plaintext and its width, or `FramingError` when the bit length differs (R131). -/
def streamDec (ks : Nat → Nat) (l : List Block) : Except Machine.WtError (Nat × Nat) :=
  let pn := joinFields (0, 0) (xorFields ks 0 l)
  if bitlen pn.1 = pn.2 then .ok pn else .error .framingError

/-- `CB_OK(list)` (R130). -/
def cbOk : List Block → Bool
  | [] => true
  | [b] => decide (1 ≤ b.w) && decide (b.w ≤ 128) && decide (b.v < 2 ^ b.w)
  | b :: c :: bs => decide (b.w = 128) && decide (b.v < 2 ^ b.w) && cbOk (c :: bs)

/-- The counter range of a stream of `blocks` blocks is left: `B >= 1 and NONCE + B - 1 >= 2^128` (R127). -/
def ctrOverflow (nonce : BitVec 128) (blocks : Nat) : Bool :=
  decide (1 ≤ blocks) && decide (2 ^ 128 ≤ nonce.toNat + blocks - 1)

end Sys2Proof.Machine
end

