-- ==== Sys2Proof/Machine/Ops.lean ====
section
/-! DEFINITION. The named operations over the state: the byte buffers, the block list, the key schedule, the ports, discard,
and taking an error or a rejection (20_memory.md, 42_handshake.md R160, 60_exceptions.md). -/

namespace Sys2Proof.Machine

open Sys2Proof

/-! ### Byte buffers -/

/-- Byte `a` of a buffer; an unlisted byte is 0, its reset value (10_state.md R47). -/
def Memory.read (m : Memory) (a : Nat) : Byte := (m.lookup a).getD 0

/-- The cells of the bytes `b` laid out from address `a` on, bytes equal to 0 left unlisted. -/
def Memory.layout (a : Nat) : Bytes → Memory
  | [] => []
  | b :: bs => if b = 0 then Memory.layout (a + 1) bs else (a, b) :: Memory.layout (a + 1) bs

/-- The buffer that holds `b` from address 0 and 0 elsewhere: what a write of the whole buffer leaves (20_memory.md R50;
log 12). -/
def Memory.ofBytes (b : Bytes) : Memory := Memory.layout 0 b

/-- `BUF[0..n)` (00_scope.md R18). -/
def Memory.slice (m : Memory) (n : Nat) : Bytes := (List.range n).map (Memory.read m)

/-- Canonical from address `lo` on: addresses strictly rising and below the capacity, no byte equal to what an unlisted
address reads as. -/
def Memory.wfFrom (lo : Nat) : Memory → Bool
  | [] => true
  | (a, b) :: m => decide (lo ≤ a) && decide (a < Config.frameMax) && decide (b ≠ 0) && Memory.wfFrom (a + 1) m

/-- The canonical form of a buffer. -/
def Memory.wf (m : Memory) : Bool := Memory.wfFrom 0 m

/-! ### The block list -/

/-- `CBLK[i]`; a cell no operation has written holds a free value (log 10). -/
def State.blockAt (s : State) (i : Nat) : Block := (s.cblk[i]?).getD (Config.unlistedBlock i)

/-- `CBLK[0..CBN)` (10_state.md R30). -/
def State.blocks (s : State) : List Block := (List.range s.cbn).map s.blockAt

/-! ### The key schedule and the keystream -/

/-- `KEYEXP`: the schedule of `KEY` under `CFG`; `KVALID <- 1` (40_blockcipher.md R115). -/
def State.keyExp (s : State) : State :=
  { s with rk := scheduleCells s.env.z s.cfg.dim s.cfg.m s.key.toNat, kvalid := true }

/-- `CFG <- c`, the schedule zeroed, `KVALID <- 0` (40_blockcipher.md R110). -/
def State.configure (s : State) (c : Cfg) : State :=
  { s with cfg := c, rk := List.replicate Config.numRounds 0, kvalid := false }

/-- `ENC(p)` under the state's schedule (40_blockcipher.md R108). -/
def State.enc (s : State) (p : Nat) : Nat := encBlock s.cfg.var s.cfg.dim s.rk p

/-- `DEC(q)` under the state's schedule (40_blockcipher.md R109). -/
def State.dec (s : State) (q : Nat) : Nat := decBlock s.cfg.var s.cfg.dim s.rk q

/-- `KSB(i) = ENC(NONCE + i)` (41_counterstream.md R122). -/
def State.ksb (s : State) (i : Nat) : Nat := s.enc (s.nonce.toNat + i)

/-- `CS_INIT` (41_counterstream.md R128): the range test of the key, then `CFG <- (128, 256, PROTO_VARIANT)` and `KEYEXP`. -/
def State.csInit (s : State) : Except WtError State :=
  if 2 ^ 256 ≤ s.key.toNat then .error .domainError
  else .ok { s with cfg := protoCfg s.env.protoVariant }.keyExp

/-! ### The ports -/

/-- One sample of `TOD_US`, under its only law `t >= TOD_LAST` (43_external_primitives.md R181; log 3). -/
def State.todSample (s : State) : BitVec 64 := if s.todLast ≤ s.env.todRaw then s.env.todRaw else s.todLast

/-- The state after the port has delivered a sample; `TOD_LAST` is written by `CS.ENC` itself. -/
def State.todTaken (s : State) : State := { s with env := s.env.todTaken }

/-- The state after `RNG256` has delivered a draw. -/
def State.rngTaken (s : State) : State := { s with env := s.env.rngTaken }

/-! ### Discard -/

/-- `DISCARD(session)` (42_handshake.md R160). -/
def State.discardSession (s : State) : State :=
  { s with
    key := 0, rk := List.replicate Config.numRounds 0, kvalid := false, nonce := 0,
    cbn := 0, cblk := [],
    rxlen := 0, rxbuf := [],
    rqSk := 0, rqPl := 0, rqPlbits := 0,
    kdKey := 0, kdTod := 0, kdCanon := [],
    adCanon := [], adHash := 0, sig := 0 }

/-- What `DISCARD(full)` clears beyond the session's registers: the outputs of a session (42_handshake.md R160). -/
def State.discardOutputs (s : State) : State :=
  { s with msg := 0, mlen := 0, newkey := 0, txlen := 0, txbuf := [], txvalid := false }

/-- `DISCARD(full)` (42_handshake.md R160). -/
def State.discardFull (s : State) : State := s.discardSession.discardOutputs

/-! ### Taking an error, rejection, and the ends of an operation -/

/-- The kind of operation that raises an error (60_exceptions.md R190). -/
inductive ErrorSite
  | command
  | sequencer
deriving DecidableEq, Repr

/-- TAKING AN ERROR, from the state before the operation (R198). In a command: `RES <- code(E)`, nothing else (R196). In a
sequencer step: `DISCARD(full)`, `HERR <- code(E)`, `HSTATE <- CLOSED` (R197). Nothing is saved and there is no return:
after `CLOSED` only `HS.START` goes on (R202, R203). -/
def State.takeError (s : State) (site : ErrorSite) (e : WtError) : State :=
  match site with
  | .command => { s with res := .error e }
  | .sequencer => { s.discardFull with herr := some e, hstate := .closed }

/-- `reject`: `RES <- 15`, `STATUS.ILL <- 1`, nothing else (30_encoding.md R78). -/
def State.reject (s : State) : State := { s with res := .rejected, ill := true }

/-- A host write that is dropped: `STATUS.ILL <- 1`, `RES` not touched (30_encoding.md R80, R81). -/
def State.dropWrite (s : State) : State := { s with ill := true }

/-- How a command's rule ends other than in success (30_encoding.md R72). -/
inductive CommandStop
  | reject
  | raise (e : WtError)
deriving DecidableEq, Repr

/-- The end of a command performed from `s`: success commits the writes with `RES <- 0`, an error or a rejection commits
none of them (30_encoding.md R72 (3), 60_exceptions.md R198). -/
def State.finishCommand (s : State) (r : Except CommandStop State) : State :=
  match r with
  | .ok t => { t with res := .ok }
  | .error .reject => s.reject
  | .error (.raise e) => s.takeError .command e

/-- The end of a sequencer step taken from `s` (42_handshake.md R146). -/
def State.finishStep (s : State) (r : Except WtError State) : State :=
  match r with
  | .ok t => t
  | .error e => s.takeError .sequencer e

/-- A command admitted in the states `admitted` names; elsewhere it is rejected (30_encoding.md R72 (2), R79). -/
def State.ifAdmitted (s : State) (admitted : Bool) (t : State) : State := if admitted then t else s.reject

/-- A step is taken only in the state that selects it; elsewhere it is impossible and changes nothing (42_handshake.md
R146, R162; log 17). -/
def State.ifSelected (s : State) (h : HState) (t : State) : State := if s.hstate = h then t else s

/-- The answer type of a meaning. -/
abbrev Result := Host.Outcome State Fault Refusal

end Sys2Proof.Machine
end

