-- ==== Sys2Proof/Machine/BlockCipher.lean ====
section
/-! DEFINITION. The commands NOP, BC.CFG, BC.REKEY, BC.ENC and BC.DEC (40_blockcipher.md R110 to R114). -/

namespace Sys2Proof.Machine

open Sys2Proof

/-- `NOP`: `RES <- 0`, in every state (R114). -/
def execNop (s : State) : Result := .next (s.finishCommand (.ok s))

/-- The rule of `BC.CFG` (R110). -/
def bcCfgRule (bs ks : Nat) (var : Variant) (s : State) : Except CommandStop State :=
  if validCfg bs ks then .ok (s.configure ⟨BitVec.ofNat 8 bs, BitVec.ofNat 12 ks, var⟩) else .error .reject

/-- `BC.CFG bs, ks, var` (R110). -/
def execBcCfg (bs ks : Nat) (var : Variant) (s : State) : Result :=
  .next (s.ifAdmitted s.hstate.unitsFree (s.finishCommand (bcCfgRule bs ks var s)))

/-- The rule of `BC.REKEY` (R111). -/
def bcRekeyRule (s : State) : Except CommandStop State :=
  if ¬validCfg s.cfg.bs.toNat s.cfg.ks.toNat then .error .reject
  else if 2 ^ s.cfg.ks.toNat ≤ s.key.toNat then .error (.raise .domainError)
  else .ok s.keyExp

/-- `BC.REKEY` (R111). -/
def execBcRekey (s : State) : Result :=
  .next (s.ifAdmitted s.hstate.unitsFree (s.finishCommand (bcRekeyRule s)))

/-- What `BC.ENC` and `BC.DEC` share: the schedule must be valid and `DIN` in range, then `DOUT` takes the result of `f` on
`DIN`, zero-extended (R112, R113). -/
def blockRule (f : Nat → Nat) (s : State) : Except CommandStop State :=
  if s.kvalid = false then .error .reject
  else if 2 ^ s.cfg.bs.toNat ≤ s.din.toNat then .error (.raise .domainError)
  else .ok { s with dout := BitVec.ofNat 128 (f s.din.toNat) }

/-- `BC.ENC` (R112). -/
def execBcEnc (s : State) : Result :=
  .next (s.ifAdmitted s.hstate.unitsFree (s.finishCommand (blockRule s.enc s)))

/-- `BC.DEC` (R113). -/
def execBcDec (s : State) : Result :=
  .next (s.ifAdmitted s.hstate.unitsFree (s.finishCommand (blockRule s.dec s)))

end Sys2Proof.Machine
end

