-- ==== Sys2Proof/Machine/CounterStream.lean ====
section
/-! DEFINITION. The commands CS.ENC and CS.DEC (41_counterstream.md R129, R133). -/

namespace Sys2Proof.Machine

open Sys2Proof

/-- The rule of `CS.ENC` with the sample `t` of `TOD_US` (R129): `NONCE_GEN`, `CS_INIT`, the counter range, then the blocks.
The new list replaces the old one (log 18). -/
def csEncRule (t : BitVec 64) (s : State) : Except CommandStop State :=
  match { s with todLast := t, nonce := nonceOf t }.csInit with
  | .error e => .error (.raise e)
  | .ok u =>
    if ctrOverflow u.nonce (numBlocks (bitlen u.msg)) then .error (.raise .domainError)
    else .ok { u with cblk := streamEnc u.ksb u.msg, cbn := numBlocks (bitlen u.msg), mlen := bitlen u.msg }

/-- `CS.ENC` (R129). Once admitted it takes one sample of the port (log 3). -/
def execCsEnc (s : State) : Result :=
  .next (s.ifAdmitted s.hstate.unitsFree (s.todTaken.finishCommand (csEncRule s.todSample s.todTaken)))

/-- `CS_INIT`, the counter range, `STREAM_DEC`, then `MSG` and `MLEN`: what `CS.DEC` and step `DECRYPT_PAYLOAD` share (R133,
42_handshake.md R153). -/
def streamDecrypt (l : List Block) (s : State) : Except WtError State :=
  match s.csInit with
  | .error e => .error e
  | .ok u =>
    if ctrOverflow u.nonce l.length then .error .domainError
    else
      match streamDec u.ksb l with
      | .error e => .error e
      | .ok (p, n) => .ok { u with msg := p, mlen := n }

/-- The rule of `CS.DEC` (R133): `CB_OK` first, then the shared part. -/
def csDecRule (s : State) : Except CommandStop State :=
  if ¬cbOk s.blocks then .error (.raise .framingError)
  else
    match streamDecrypt s.blocks s with
    | .error e => .error (.raise e)
    | .ok t => .ok t

/-- `CS.DEC` (R133). -/
def execCsDec (s : State) : Result :=
  .next (s.ifAdmitted s.hstate.unitsFree (s.finishCommand (csDecRule s)))

end Sys2Proof.Machine
end

