-- ==== Sys2Proof/Machine/Frame.lean ====
section
/-! DEFINITION. The wire frame: one type byte, eight decimal digits, the payload (30_encoding.md R84 to R89). -/

namespace Sys2Proof.Machine

open Sys2Proof

/-- Type `'1'`, client request (R85). -/
def typeRequest : Byte := 0x31#8

/-- Type `'2'`, server response (R85). -/
def typeResponse : Byte := 0x32#8

/-- Type `'3'`, file-transfer header (R85). -/
def typeFile : Byte := 0x33#8

/-- An ASCII digit, `0x30..0x39` (R86). -/
def isDigit (b : Byte) : Bool := decide (0x30 ≤ b.toNat) && decide (b.toNat ≤ 0x39)

/-- The number the digits `ds` denote, most significant digit first (R86). -/
def digitsValue (ds : Bytes) : Nat := ds.foldl (fun acc b => 10 * acc + (b.toNat - 0x30)) 0

/-- The eight length bytes of `v` (R87). -/
def lengthDigits (v : Nat) : Bytes := (List.range 8).map fun j => BitVec.ofNat 8 (0x30 + v / 10 ^ (7 - j) % 10)

/-- The bytes of the length field, `B[1..9)` (R84). -/
def lengthField (b : Bytes) : Bytes := (b.drop 1).take 8

/-- `frame_check(B, t)`: the payload, or `FramingError`, tested in the order of R88. -/
def frameCheck (b : Bytes) (t : Byte) : Except WtError Bytes :=
  if b.length < 9 then .error .framingError
  else if ¬(b.getD 0 0 = typeRequest ∨ b.getD 0 0 = typeResponse ∨ b.getD 0 0 = typeFile) then .error .framingError
  else if b.getD 0 0 ≠ t then .error .framingError
  else if ¬(lengthField b).all isDigit then .error .framingError
  else if b.length - 9 ≠ digitsValue (lengthField b) then .error .framingError
  else .ok (b.drop 9)

/-- `frame_build(t, P)` (R89). -/
def frameBuild (t : Byte) (p : Bytes) : Bytes := t :: (lengthDigits p.length ++ p)

end Sys2Proof.Machine
end

