-- ==== Sys2Proof/Machine/Handshake.lean ====
section
/-! DEFINITION. The commands HS.START, HS.RX, HS.ABORT and the six sequencer steps (42_handshake.md R141 to R160). -/

namespace Sys2Proof.Machine

open Sys2Proof

/-- The rule of `HS.START` (R141). -/
def hsStartRule (s : State) : Except CommandStop State :=
  if s.pubN = 0 ∨ s.privN = 0 then .error .reject
  else .ok { s.discardFull with herr := none, sigok := false, hashok := false, hstate := .awaitRequest }

/-- `HS.START` (R141). -/
def execHsStart (s : State) : Result :=
  .next (s.ifAdmitted s.hstate.unitsFree (s.finishCommand (hsStartRule s)))

/-- `HS.RX` (R142). -/
def execHsRx (s : State) : Result :=
  .next (s.ifAdmitted (decide (s.hstate = .awaitRequest)) (s.finishCommand (.ok { s with hstate := .validateRequest })))

/-- `HS.ABORT`, in every state (R143). -/
def execHsAbort (s : State) : Result :=
  .next (s.finishCommand (.ok (if s.hstate = .idle then s else { s.discardFull with hstate := .closed })))

/-- The request in the received frame: `frame_check(RXBUF[0..RXLEN), '1')`, `parse_request`, the width test (R150). -/
def receivedRequest (s : State) : Except WtError Request :=
  match frameCheck (s.rxbuf.slice s.rxlen) typeRequest with
  | .error e => .error e
  | .ok body =>
    match s.env.parseRequest body with
    | none => .error .framingError
    | some r => if 2 ^ r.plbits ≤ r.pl then .error .framingError else .ok r

/-- The rule of step `VALIDATE_REQUEST` (R150). -/
def validateRequestRule (s : State) : Except WtError State :=
  match receivedRequest s with
  | .error e => .error e
  | .ok r => .ok { s with rqSk := r.sk, rqPl := r.pl, rqPlbits := r.plbits, hstate := .decryptSessionKey }

/-- Step `VALIDATE_REQUEST` (R150). -/
def execStepValidateRequest (s : State) : Result :=
  .next (s.ifSelected .validateRequest (s.finishStep (validateRequestRule s)))

/-- The key data in the session-key ciphertext: `modpow`, `le_bytes`, `utf8_decode`, `parse_keydata` (R151). -/
def recoveredKeyData (s : State) : Except WtError KeyData :=
  match utf8Decode (leBytes (modpow s.rqSk s.privD s.privN)) with
  | none => .error .keyRecoveryError
  | some text =>
    match s.env.parseKeydata text with
    | none => .error .keyRecoveryError
    | some kd => .ok kd

/-- The rule of step `DECRYPT_SESSION_KEY` (R151). -/
def decryptSessionKeyRule (s : State) : Except WtError State :=
  match recoveredKeyData s with
  | .error e => .error e
  | .ok kd => .ok { s with kdKey := kd.key, kdTod := kd.tod, kdCanon := kd.canon, hstate := .decryptPayload }

/-- Step `DECRYPT_SESSION_KEY` (R151). -/
def execStepDecryptSessionKey (s : State) : Result :=
  .next (s.ifSelected .decryptSessionKey (s.finishStep (decryptSessionKeyRule s)))

/-- `KEY`, `NONCE`, `CBLK`, `CBN` loaded from the recovered key data and the request's payload field (R153). -/
def State.loadPayload (s : State) : State :=
  { s with
    key := BitVec.ofNat 256 s.kdKey, nonce := BitVec.ofNat 128 s.kdTod,
    cblk := split s.rqPl s.rqPlbits, cbn := (split s.rqPl s.rqPlbits).length }

/-- The payload in a decrypted message: `le_bytes`, `utf8_decode`, `parse_payload` (R153). -/
def decodedPayload (s : State) : Except WtError Payload :=
  match utf8Decode (leBytes s.msg) with
  | none => .error .payloadDecodeError
  | some text =>
    match s.env.parsePayload text with
    | none => .error .payloadDecodeError
    | some p => .ok p

/-- The rule of step `DECRYPT_PAYLOAD` (R153). -/
def decryptPayloadRule (s : State) : Except WtError State :=
  if 2 ^ 256 ≤ s.kdKey ∨ 2 ^ 128 ≤ s.kdTod then .error .domainError
  else
    match streamDecrypt (split s.rqPl s.rqPlbits) s.loadPayload with
    | .error e => .error e
    | .ok t =>
      match decodedPayload t with
      | .error e => .error e
      | .ok p => .ok { t with adCanon := p.adCanon, adHash := p.adHash, sig := p.sig, hstate := .verifySignature }

/-- Step `DECRYPT_PAYLOAD` (R153). -/
def execStepDecryptPayload (s : State) : Result :=
  .next (s.ifSelected .decryptPayload (s.finishStep (decryptPayloadRule s)))

/-- The digest integer of a byte string: `le_int(sha3_512(B))` (R154, R155). -/
def digestInt (b : Bytes) : Nat := leInt (sha3_512 b)

/-- The rule of step `VERIFY_SIGNATURE` (R154). -/
def verifySignatureRule (s : State) : Except WtError State :=
  if modpow s.sig s.pubE s.pubN ≠ digestInt s.adCanon then .error .signatureInvalid
  else .ok { s with sigok := true, hstate := .verifyHash }

/-- Step `VERIFY_SIGNATURE` (R154). -/
def execStepVerifySignature (s : State) : Result :=
  .next (s.ifSelected .verifySignature (s.finishStep (verifySignatureRule s)))

/-- The rule of step `VERIFY_HASH` (R155). -/
def verifyHashRule (s : State) : Except WtError State :=
  if digestInt s.kdCanon ≠ s.adHash then .error .sessionKeyHashMismatch
  else .ok { s with hashok := true, hstate := .buildResponse }

/-- Step `VERIFY_HASH` (R155). -/
def execStepVerifyHash (s : State) : Result :=
  .next (s.ifSelected .verifyHash (s.finishStep (verifyHashRule s)))

/-- The body of the response to the fresh key `k`: `build_response(k, le_int(sha3_512(resp_canon(k))))` (R157). -/
def responseBody (e : Env) (k : BitVec 256) : Bytes := e.buildResponse k (digestInt (e.respCanon k))

/-- `NEWKEY`, `TXBUF`, `TXLEN`, `TXVALID` written for the fresh key `k` and the response body (R157). -/
def State.putResponse (s : State) (k : BitVec 256) (body : Bytes) : State :=
  { s with newkey := k, txbuf := Memory.ofBytes (frameBuild typeResponse body), txlen := 9 + body.length, txvalid := true }

/-- The rule of step `BUILD_RESPONSE` with the draw `k` and the body it gives (R157). -/
def buildResponseRule (k : BitVec 256) (body : Bytes) (s : State) : Except WtError State :=
  if Config.bodyMax < body.length then .error .framingError
  else .ok { (s.putResponse k body).discardSession with hstate := .sent }

/-- Step `BUILD_RESPONSE` (R157). It takes one draw of the port (log 4). -/
def execStepBuildResponse (s : State) : Result :=
  .next (s.ifSelected .buildResponse
    (s.rngTaken.finishStep (buildResponseRule s.env.rngRaw (responseBody s.env s.env.rngRaw) s.rngTaken)))

end Sys2Proof.Machine
end

