-- ==== Sys2Proof/Machine/Dispatch.lean ====
section
/-! DEFINITION. One arm per instruction, each a call of its meaning. -/

namespace Sys2Proof.Machine

open Sys2Proof

def exec (i : Instr) (s : State) : Host.Outcome State Fault Refusal :=
  match i with
  | .nop => Sys2Proof.Machine.execNop s
  | .bcCfg bs ks var => Sys2Proof.Machine.execBcCfg bs ks var s
  | .bcRekey => Sys2Proof.Machine.execBcRekey s
  | .bcEnc => Sys2Proof.Machine.execBcEnc s
  | .bcDec => Sys2Proof.Machine.execBcDec s
  | .csEnc => Sys2Proof.Machine.execCsEnc s
  | .csDec => Sys2Proof.Machine.execCsDec s
  | .hsStart => Sys2Proof.Machine.execHsStart s
  | .hsRx => Sys2Proof.Machine.execHsRx s
  | .hsAbort => Sys2Proof.Machine.execHsAbort s
  | .stepValidateRequest => Sys2Proof.Machine.execStepValidateRequest s
  | .stepDecryptSessionKey => Sys2Proof.Machine.execStepDecryptSessionKey s
  | .stepDecryptPayload => Sys2Proof.Machine.execStepDecryptPayload s
  | .stepVerifySignature => Sys2Proof.Machine.execStepVerifySignature s
  | .stepVerifyHash => Sys2Proof.Machine.execStepVerifyHash s
  | .stepBuildResponse => Sys2Proof.Machine.execStepBuildResponse s

end Sys2Proof.Machine
end

