-- ==== Sys2Proof/WellFormed.lean ====
section
/-! DEFINITION. Which instruction terms have an encoding: the operand ranges of 30_encoding.md R74. -/

namespace Sys2Proof

/-- `bs` fits `ARG[7:0]` and `ks` fits `ARG[19:8]` (30_encoding.md R74); no other instruction has an operand (R75). Whether
`(bs, ks)` is a valid configuration is judged by the command itself, not here. -/
def Instr.wellFormed : Instr → Bool
  | .nop => true
  | .bcCfg bs ks _ => decide (bs < 2 ^ 8) && decide (ks < 2 ^ 12)
  | .bcRekey => true
  | .bcEnc => true
  | .bcDec => true
  | .csEnc => true
  | .csDec => true
  | .hsStart => true
  | .hsRx => true
  | .hsAbort => true
  | .stepValidateRequest => true
  | .stepDecryptSessionKey => true
  | .stepDecryptPayload => true
  | .stepVerifySignature => true
  | .stepVerifyHash => true
  | .stepBuildResponse => true

end Sys2Proof
end

