-- ==== Sys2Proof/Decode.lean ====
section
/-! DEFINITION. The decoder of command words and of sequencer-state codes, the encoder, and the rows of the opcode table
(30_encoding.md R70 to R77, R82). -/

namespace Sys2Proof

/-- What WTCORE decodes into an instruction (30_encoding.md R70 (a), (b)): a 32-bit word written to `CMD`, or the 4-bit code
in `HSTATE`. -/
inductive Code
  | command (w : BitVec 32)
  | state (c : BitVec 4)
deriving DecidableEq, Repr

/-- Why a code is no instruction. The first two are reject causes (a) and (b) of 60_exceptions.md R200; the third is a
state in which the sequencer has no step (30_encoding.md R82). -/
inductive DecodeError
  /-- `OPC` is not in the opcode map (30_encoding.md R76). -/
  | reservedOpcode (opc : BitVec 8)
  /-- A reserved bit of `ARG` is not 0 (30_encoding.md R74, R75). -/
  | reservedArgument (opc : BitVec 8) (arg : BitVec 24)
  /-- `HSTATE` codes 0, 1 and 8 to 15 select no step (30_encoding.md R82). -/
  | noStep (c : BitVec 4)
deriving DecidableEq, Repr

/-- `OPC = w[31:24]` (30_encoding.md R71). -/
def opcField (w : BitVec 32) : BitVec 8 := w.extractLsb' 24 8

/-- `ARG = w[23:0]` (30_encoding.md R71). -/
def argField (w : BitVec 32) : BitVec 24 := w.extractLsb' 0 24

/-- The one bit of `CFG.VAR` (10_state.md R21). -/
def Variant.bit : Variant → BitVec 1
  | .standard => 0
  | .alternate => 1

/-- The variant a bit names (30_encoding.md R74: 0 = AND combiner, 1 = XOR combiner). -/
def Variant.ofBit (b : BitVec 1) : Variant := if b = 0 then .standard else .alternate

/-- A command without operands: every bit of `ARG` is reserved (30_encoding.md R75). -/
def decodeNoArg (i : Instr) (opc : BitVec 8) (arg : BitVec 24) : Except DecodeError Instr :=
  if arg = 0 then .ok i else .error (.reservedArgument opc arg)

/-- `BC.CFG`: `bs = ARG[7:0]`, `ks = ARG[19:8]`, `var = ARG[20]`, `ARG[23:21]` must be 0 (30_encoding.md R74). -/
def decodeCfg (opc : BitVec 8) (arg : BitVec 24) : Except DecodeError Instr :=
  if arg.extractLsb' 21 3 = 0 then
    .ok (.bcCfg (arg.extractLsb' 0 8).toNat (arg.extractLsb' 8 12).toNat (Variant.ofBit (arg.extractLsb' 20 1)))
  else .error (.reservedArgument opc arg)

/-- The opcode map of 30_encoding.md R73; every other `OPC` is reserved (R76). -/
def decodeCommand (w : BitVec 32) : Except DecodeError Instr :=
  let opc := opcField w
  let arg := argField w
  if opc = 0x00#8 then decodeNoArg .nop opc arg
  else if opc = 0x10#8 then decodeCfg opc arg
  else if opc = 0x11#8 then decodeNoArg .bcRekey opc arg
  else if opc = 0x12#8 then decodeNoArg .bcEnc opc arg
  else if opc = 0x13#8 then decodeNoArg .bcDec opc arg
  else if opc = 0x20#8 then decodeNoArg .csEnc opc arg
  else if opc = 0x21#8 then decodeNoArg .csDec opc arg
  else if opc = 0x30#8 then decodeNoArg .hsStart opc arg
  else if opc = 0x31#8 then decodeNoArg .hsRx opc arg
  else if opc = 0x3F#8 then decodeNoArg .hsAbort opc arg
  else .error (.reservedOpcode opc)

/-- The sequencer step a code of `HSTATE` selects (30_encoding.md R82). -/
def decodeState (c : BitVec 4) : Except DecodeError Instr :=
  if c = 2#4 then .ok .stepValidateRequest
  else if c = 3#4 then .ok .stepDecryptSessionKey
  else if c = 4#4 then .ok .stepDecryptPayload
  else if c = 5#4 then .ok .stepVerifySignature
  else if c = 6#4 then .ok .stepVerifyHash
  else if c = 7#4 then .ok .stepBuildResponse
  else .error (.noStep c)

/-- The decoder of both kinds of code. -/
def decode : Code → Except DecodeError Instr
  | .command w => decodeCommand w
  | .state c => decodeState c

/-- The command word `OPC = opc`, `ARG = arg` (30_encoding.md R71). -/
def commandWord (opc : BitVec 8) (arg : BitVec 24) : BitVec 32 := opc ++ arg

/-- `ARG` of `BC.CFG`: reserved bits 0, then `var`, `ks`, `bs` (30_encoding.md R74). -/
def cfgArg (bs ks : Nat) (var : Variant) : BitVec 24 :=
  0#3 ++ var.bit ++ BitVec.ofNat 12 ks ++ BitVec.ofNat 8 bs

/-- The encoder (30_encoding.md R73 to R75, R82): the code of each instruction. -/
def encode : Instr → Code
  | .nop => .command (commandWord 0x00#8 0)
  | .bcCfg bs ks var => .command (commandWord 0x10#8 (cfgArg bs ks var))
  | .bcRekey => .command (commandWord 0x11#8 0)
  | .bcEnc => .command (commandWord 0x12#8 0)
  | .bcDec => .command (commandWord 0x13#8 0)
  | .csEnc => .command (commandWord 0x20#8 0)
  | .csDec => .command (commandWord 0x21#8 0)
  | .hsStart => .command (commandWord 0x30#8 0)
  | .hsRx => .command (commandWord 0x31#8 0)
  | .hsAbort => .command (commandWord 0x3F#8 0)
  | .stepValidateRequest => .state 2#4
  | .stepDecryptSessionKey => .state 3#4
  | .stepDecryptPayload => .state 4#4
  | .stepVerifySignature => .state 5#4
  | .stepVerifyHash => .state 6#4
  | .stepBuildResponse => .state 7#4

/-- A row of format `CMD` of spec/opcode_table.json (30_encoding.md R77): `w` selects the row when `w & mask = pattern`. -/
structure CommandRow where
  pattern : BitVec 32
  mask : BitVec 32
deriving DecidableEq, Repr

/-- `w & mask = match` (30_encoding.md R77). -/
def CommandRow.selects (r : CommandRow) (w : BitVec 32) : Bool := w &&& r.mask == r.pattern

/-- The ten rows of format `CMD`, in the table's order. -/
def commandRows : List CommandRow :=
  [⟨0x00000000#32, 0xFFFFFFFF#32⟩, ⟨0x10000000#32, 0xFFE00000#32⟩, ⟨0x11000000#32, 0xFFFFFFFF#32⟩,
   ⟨0x12000000#32, 0xFFFFFFFF#32⟩, ⟨0x13000000#32, 0xFFFFFFFF#32⟩, ⟨0x20000000#32, 0xFFFFFFFF#32⟩,
   ⟨0x21000000#32, 0xFFFFFFFF#32⟩, ⟨0x30000000#32, 0xFFFFFFFF#32⟩, ⟨0x31000000#32, 0xFFFFFFFF#32⟩,
   ⟨0x3F000000#32, 0xFFFFFFFF#32⟩]

/-- The row of format `CMD` of an instruction; the six steps have none (30_encoding.md R77). -/
def Instr.row : Instr → Option CommandRow
  | .nop => commandRows[0]?
  | .bcCfg _ _ _ => commandRows[1]?
  | .bcRekey => commandRows[2]?
  | .bcEnc => commandRows[3]?
  | .bcDec => commandRows[4]?
  | .csEnc => commandRows[5]?
  | .csDec => commandRows[6]?
  | .hsStart => commandRows[7]?
  | .hsRx => commandRows[8]?
  | .hsAbort => commandRows[9]?
  | .stepValidateRequest => none
  | .stepDecryptSessionKey => none
  | .stepDecryptPayload => none
  | .stepVerifySignature => none
  | .stepVerifyHash => none
  | .stepBuildResponse => none

/-- The instruction read from a row's bits: the table gives a command 32 bits and a sequencer step the 4 bits of `HSTATE`
(one byte when counted in whole bytes), so at most 8 bits are a state code and more are a command word (log 25). -/
def decodeTableWord (nbits w : Nat) : Option Instr :=
  if nbits ≤ 8 then
    if w < 2 ^ 4 then (decode (.state (BitVec.ofNat 4 w))).toOption else none
  else if w < 2 ^ 32 then (decode (.command (BitVec.ofNat 32 w))).toOption else none

end Sys2Proof
end

