-- ==== Sys2Proof/Machine/HostAccess.lean ====
section
/-! DEFINITION. The host's register accesses: numbers, rights, write windows, what a read returns and what a write does
(30_encoding.md R80, R81, R94). -/

namespace Sys2Proof.Machine

open Sys2Proof

/-- The host-visible registers (30_encoding.md R80). -/
inductive Reg
  | cmd
  | res
  | status
  | cfg
  | key
  | din
  | dout
  | nonce
  | mlen
  | msg
  | cbn
  | cblk
  | hstate
  | herr
  | pubE
  | pubN
  | privD
  | privN
  | rxlen
  | rxbuf
  | txlen
  | txbuf
  | newkey
deriving DecidableEq, Repr

/-- The register numbers (30_encoding.md R80); the numbers not listed are reserved. -/
def regNumbers : List (BitVec 5 × Reg) :=
  [(0x00#5, .cmd), (0x01#5, .res), (0x02#5, .status), (0x03#5, .cfg), (0x04#5, .key), (0x05#5, .din), (0x06#5, .dout),
   (0x08#5, .nonce), (0x09#5, .mlen), (0x0A#5, .msg), (0x0B#5, .cbn), (0x0C#5, .cblk), (0x10#5, .hstate),
   (0x11#5, .herr), (0x12#5, .pubE), (0x13#5, .pubN), (0x14#5, .privD), (0x15#5, .privN), (0x16#5, .rxlen),
   (0x17#5, .rxbuf), (0x18#5, .txlen), (0x19#5, .txbuf), (0x1A#5, .newkey)]

/-- The reserved numbers, in rising order (30_encoding.md R80). -/
def reservedNumbers : List (BitVec 5) := [0x07#5, 0x0D#5, 0x0E#5, 0x0F#5, 0x1B#5, 0x1C#5, 0x1D#5, 0x1E#5, 0x1F#5]

/-- The register a number names, if it is not reserved. -/
def Reg.ofNumber (n : BitVec 5) : Option Reg := regNumbers.lookup n

/-- What a host read of a register returns: its value whole where the host may read it, else 0 (30_encoding.md R80;
10_state.md R22, R33, R34, R41). `CBLK` gives its `CBN` entries and `TXBUF` its first `TXLEN` bytes (log 15). -/
def Reg.read (r : Reg) (s : State) : RegValue :=
  match r with
  | .cmd => .number 0
  | .res => .number s.res.code.toNat
  | .status => .number s.status.toNat
  | .cfg => .number s.cfg.readBack
  | .key => .number 0
  | .din => .number s.din.toNat
  | .dout => .number s.dout.toNat
  | .nonce => .number s.nonce.toNat
  | .mlen => .number s.mlen
  | .msg => .number s.msg
  | .cbn => .number s.cbn
  | .cblk => .blocks s.blocks
  | .hstate => .number s.hstate.code.toNat
  | .herr => .number (herrCode s.herr).toNat
  | .pubE => .number s.pubE
  | .pubN => .number s.pubN
  | .privD => .number 0
  | .privN => .number s.privN
  | .rxlen => .number 0
  | .rxbuf => .number 0
  | .txlen => .number s.txlen
  | .txbuf => .bytes (s.txbuf.slice s.txlen)
  | .newkey => .number s.newkey.toNat

/-- A host read of register number `n`; a reserved number reads 0 (20_memory.md R52). -/
def State.readReg (s : State) (n : BitVec 5) : RegValue :=
  match Reg.ofNumber n with
  | some r => r.read s
  | none => .number 0

/-- A host read: the value goes to the host and nothing of WTCORE changes (20_memory.md R61). -/
def State.serveRead (s : State) (n : BitVec 5) : State := { s with env := { s.env with rdata := s.readReg n } }

/-- The number of a register the host may not write. -/
def UnwritableReg.number : UnwritableReg → BitVec 5
  | .res => 0x01
  | .status => 0x02
  | .cfg => 0x03
  | .dout => 0x06
  | .mlen => 0x09
  | .hstate => 0x10
  | .herr => 0x11
  | .txlen => 0x18
  | .txbuf => 0x19
  | .newkey => 0x1A
  | .reserved i => reservedNumbers.getD i.val 0

/-- The register number a write goes to (30_encoding.md R80). -/
def HostWrite.number : HostWrite → BitVec 5
  | .cmd _ => 0x00
  | .key _ => 0x04
  | .din _ => 0x05
  | .nonce _ => 0x08
  | .msg _ => 0x0A
  | .cbn _ => 0x0B
  | .cblk _ => 0x0C
  | .pubE _ => 0x12
  | .pubN _ => 0x13
  | .privD _ => 0x14
  | .privN _ => 0x15
  | .rxlen _ => 0x16
  | .rxbuf _ => 0x17
  | .unwritable r => r.number

/-- The write windows (30_encoding.md R81): with the units free every register marked W; in `AWAIT_REQUEST` only `CMD`,
`RXLEN`, `RXBUF`; while the sequencer runs only `CMD`. -/
def HostWrite.inWindow (w : HostWrite) (h : HState) : Bool :=
  match w with
  | .cmd _ => true
  | .key _ => h.unitsFree
  | .din _ => h.unitsFree
  | .nonce _ => h.unitsFree
  | .msg _ => h.unitsFree
  | .cbn _ => h.unitsFree
  | .cblk _ => h.unitsFree
  | .pubE _ => h.unitsFree
  | .pubN _ => h.unitsFree
  | .privD _ => h.unitsFree
  | .privN _ => h.unitsFree
  | .rxlen _ => h.unitsFree || decide (h = .awaitRequest)
  | .rxbuf _ => h.unitsFree || decide (h = .awaitRequest)
  | .unwritable _ => false

/-- The value fits the register: `RXBUF` and `RXLEN` are bounded by `FRAME_MAX` (10_state.md R34; log 13). -/
def HostWrite.fits : HostWrite → Bool
  | .cmd _ => true
  | .key _ => true
  | .din _ => true
  | .nonce _ => true
  | .msg _ => true
  | .cbn _ => true
  | .cblk _ => true
  | .pubE _ => true
  | .pubN _ => true
  | .privD _ => true
  | .privN _ => true
  | .rxlen v => decide (v ≤ Config.frameMax)
  | .rxbuf b => decide (b.length ≤ Config.frameMax)
  | .unwritable _ => true

/-- The register written. A write of `CBLK` also sets `CBN` (30_encoding.md R94); no other write touches a second register
(log 11, 12). A write of `CMD` is a command and is served as one (30_encoding.md R72). -/
def HostWrite.store (w : HostWrite) (s : State) : State :=
  match w with
  | .cmd _ => s
  | .key v => { s with key := v }
  | .din v => { s with din := v }
  | .nonce v => { s with nonce := v }
  | .msg v => { s with msg := v }
  | .cbn v => { s with cbn := v }
  | .cblk l => { s with cblk := l, cbn := l.length }
  | .pubE v => { s with pubE := v }
  | .pubN v => { s with pubN := v }
  | .privD v => { s with privD := v }
  | .privN v => { s with privN := v }
  | .rxlen v => { s with rxlen := v }
  | .rxbuf b => { s with rxbuf := Memory.ofBytes b }
  | .unwritable _ => s

/-- A host write other than of `CMD`: performed inside its window, else ignored with `STATUS.ILL <- 1` (30_encoding.md R80,
R81). -/
def State.serveWrite (s : State) (w : HostWrite) : State :=
  if w.inWindow s.hstate && w.fits then w.store s else s.dropWrite

/-! ### The pseudo-instructions of 30_encoding.md R94 -/

/-- A command as a host access: its word written to `CMD`; a sequencer step is no command. -/
def commandAccess (i : Instr) : List HostAccess :=
  match encode i with
  | .command w => [.write (.cmd w)]
  | .state _ => []

/-- `BC.INIT bs, ks, var, k`. -/
def bcInit (bs ks : Nat) (var : Variant) (k : BitVec 256) : List HostAccess :=
  commandAccess (.bcCfg bs ks var) ++ .write (.key k) :: commandAccess .bcRekey

/-- `BC.SETKEY k`. -/
def bcSetkey (k : BitVec 256) : List HostAccess := .write (.key k) :: commandAccess .bcRekey

/-- `HS.RECV bytes`. -/
def hsRecv (b : Bytes) : List HostAccess := .write (.rxbuf b) :: .write (.rxlen b.length) :: commandAccess .hsRx

end Sys2Proof.Machine
end

