-- ==== Sys2Proof/Machine/Serve.lean ====
section
/-! DEFINITION. What happens next: a host access is served, the sequencer takes its turn, RESET falls, or WTCORE waits
(30_encoding.md R72, 42_handshake.md R146, 60_exceptions.md R211, 70_reset_and_hazards.md R215). -/

namespace Sys2Proof.Machine

open Sys2Proof

/-- A host write of `w` to `CMD`: decode, then the command's meaning; a reserved word is rejected (30_encoding.md R72, R76). -/
def serveCommand (w : BitVec 32) (s : State) : Result :=
  match decode (.command w) with
  | .ok i => exec i s
  | .error _ => .next s.reject

/-- A host access (30_encoding.md R80). -/
def serveAccess (a : HostAccess) (s : State) : Result :=
  match a with
  | .read n => .next (s.serveRead n)
  | .write (.cmd w) => serveCommand w s
  | .write w => .next (s.serveWrite w)

/-- The sequencer's turn: the step `HSTATE` selects, and nothing in a waiting state (42_handshake.md R140, R146). -/
def sequencerTurn (s : State) : Result :=
  match decode (.state s.hstate.code) with
  | .ok i => exec i s
  | .error _ => .next s

/-- `RESET`: the initial state, with parameters, ports and pending events as they were (70_reset_and_hazards.md R215 to
R218; log 19). -/
def State.afterReset (s : State) : State := { State.reset with env := s.env }

/-- One event. -/
def serveEvent (e : Event) (s : State) : Result :=
  match e with
  | .host a => serveAccess a s
  | .sequencer => sequencerTurn s
  | .reset => .next s.afterReset

/-- The state with the pending events `q`. -/
def State.withInbox (s : State) (q : List Event) : State := { s with env := { s.env with inbox := q } }

/-- One step of the machine: the oldest pending event is taken off and served; with none pending the sequencer has its turn
(42_handshake.md R146; log 6). -/
def serveNext (s : State) : Result :=
  match s.env.inbox with
  | [] => sequencerTurn s
  | e :: q => serveEvent e (s.withInbox q)

end Sys2Proof.Machine
end

