-- ==== Sys2Proof/Machine/Step.lean ====
section
/-! DEFINITION. One step of the machine, and the placing of an instruction where the next step runs it. -/

namespace Sys2Proof.Machine

open Sys2Proof

/-- One step: one event served, or the sequencer's turn (42_handshake.md R146). -/
def step (s : State) : Host.Outcome State Fault Refusal := serveNext s

/-- `s` with the table's instruction of bits `w` placed so that the very next step runs it. A command (32 bits) becomes the
oldest pending event, a host write of the word to `CMD`. A sequencer step (the 4-bit code of `HSTATE`, one byte when counted
in whole bytes) becomes the value of `HSTATE`, with the sequencer's turn as the oldest event (log 25). -/
def State.withFetchWord (s : State) (nbits w : Nat) : State :=
  if nbits ≤ 8 then
    match HState.ofCode (BitVec.ofNat 4 w) with
    | some h => { s with hstate := h }.withInbox (.sequencer :: s.env.inbox)
    | none => s.withInbox (.sequencer :: s.env.inbox)
  else s.withInbox (.host (.write (.cmd (BitVec.ofNat 32 w))) :: s.env.inbox)

end Sys2Proof.Machine
end

