-- ==== Sys2Proof/Safety.lean ====
section
/-! DEFINITION. What holds in every reachable state of WTCORE (10_state.md R48 and the rules that write the registers), in
the terms the statements use. -/

namespace Sys2Proof.Machine

open Sys2Proof

/-- A session is under way: `AWAIT_REQUEST` or a sequencer state (42_handshake.md R140). -/
def HState.inSession (h : HState) : Bool := decide (h = .awaitRequest) || h.seq

/-- The session key has been accepted: both verifications succeeded (42_handshake.md R156). -/
def State.accepted (s : State) : Prop := s.sigok = true ∧ s.hashok = true

/-- `CFG` is at its reset value or a valid configuration (10_state.md R21, 40_blockcipher.md R110). -/
def Cfg.legal (c : Cfg) : Prop := c = ⟨0, 0, .standard⟩ ∨ validCfg c.bs.toNat c.ks.toNat = true

/-- `s` with what host accesses may change while the sequencer runs at other values: `RES`, `STATUS.ILL`, and the value of the
latest host read (42_handshake.md R146). -/
def State.withHostView (s : State) (r : CmdResult) (ill : Bool) (v : RegValue) : State :=
  { s with res := r, ill := ill, env := { s.env with rdata := v } }

/-- The invariant of the machine. -/
structure State.Inv (s : State) : Prop where
  /-- 10_state.md R48 (a). -/
  schedule_length : s.rk.length = Config.numRounds
  /-- 10_state.md R48 (b). -/
  schedule_words : s.kvalid = true → ∀ k ∈ s.rk, k.toNat < 2 ^ s.cfg.dim
  /-- A valid schedule was expanded under a valid configuration (10_state.md R24, 40_blockcipher.md R115). -/
  schedule_cfg : s.kvalid = true → validCfg s.cfg.bs.toNat s.cfg.ks.toNat = true
  /-- Without a valid schedule the file is zero (10_state.md R23). -/
  schedule_cleared : s.kvalid = false → s.rk = List.replicate Config.numRounds 0
  /-- 10_state.md R21. -/
  cfg_legal : s.cfg.legal
  /-- 10_state.md R48 (e), 42_handshake.md R156. -/
  accepted : s.hstate = .buildResponse ∨ s.hstate = .sent → s.accepted
  /-- `VERIFY_HASH` is entered only after the signature was verified (42_handshake.md R156). -/
  signed : s.hstate = .verifyHash ∨ s.hashok = true → s.sigok = true
  /-- 10_state.md R48 (f). -/
  frame_valid : s.txvalid = true ↔ s.hstate = .sent
  /-- No frame and no fresh key outside `SENT` (42_handshake.md R159, 60_exceptions.md R204). -/
  silent : s.hstate ≠ .sent → s.txlen = 0 ∧ s.txbuf = [] ∧ s.newkey = 0
  /-- `HERR` records the error that closed the session (10_state.md R32). -/
  error_closed : s.herr ≠ none → s.hstate = .closed
  /-- `modpow` is never called with modulus 0 (43_external_primitives.md R170). -/
  moduli : s.hstate.inSession = true → 1 ≤ s.pubN ∧ 1 ≤ s.privN
  /-- `RQ_PL < 2^RQ_PLBITS` (10_state.md R35). -/
  request_width : s.rqPl < 2 ^ s.rqPlbits
  /-- `RXLEN <= FRAME_MAX` (10_state.md R34). -/
  received_fits : s.rxlen ≤ Config.frameMax
  /-- The frame built fits its buffer (30_encoding.md R84). -/
  sent_fits : s.txlen ≤ Config.frameMax
  /-- `RXBUF` keeps its canonical form. -/
  rxbuf_wf : Memory.wf s.rxbuf = true
  /-- `TXBUF` keeps its canonical form. -/
  txbuf_wf : Memory.wf s.txbuf = true

/-- The next state of the chain after each sequencer state (42_handshake.md R162). -/
def HState.successor : HState → HState
  | .validateRequest => .decryptSessionKey
  | .decryptSessionKey => .decryptPayload
  | .decryptPayload => .verifySignature
  | .verifySignature => .verifyHash
  | .verifyHash => .buildResponse
  | .buildResponse => .sent
  | .idle => .idle
  | .awaitRequest => .awaitRequest
  | .sent => .sent
  | .closed => .closed

/-- The errors each sequencer step can raise (60_exceptions.md R212). -/
def HState.errors : HState → List WtError
  | .validateRequest => [.framingError]
  | .decryptSessionKey => [.keyRecoveryError]
  | .decryptPayload => [.domainError, .framingError, .payloadDecodeError]
  | .verifySignature => [.signatureInvalid]
  | .verifyHash => [.sessionKeyHashMismatch]
  | .buildResponse => [.framingError]
  | .idle => []
  | .awaitRequest => []
  | .sent => []
  | .closed => []

/-- The UTF-8 form of a Unicode scalar value, the shortest there is (43_external_primitives.md R174; PRESUMED from RFC 3629,
log 8). -/
def utf8Form (c : Nat) : Bytes :=
  if c < 0x80 then [BitVec.ofNat 8 c]
  else if c < 0x800 then [BitVec.ofNat 8 (0xC0 + c / 64), BitVec.ofNat 8 (0x80 + c % 64)]
  else if c < 0x10000 then
    [BitVec.ofNat 8 (0xE0 + c / 4096), BitVec.ofNat 8 (0x80 + c / 64 % 64), BitVec.ofNat 8 (0x80 + c % 64)]
  else
    [BitVec.ofNat 8 (0xF0 + c / 262144), BitVec.ofNat 8 (0x80 + c / 4096 % 64), BitVec.ofNat 8 (0x80 + c / 64 % 64),
      BitVec.ofNat 8 (0x80 + c % 64)]

/-- A Unicode scalar value: a code point that is no surrogate (43_external_primitives.md R174). -/
def isScalar (c : Nat) : Prop := c < 0x110000 ∧ ¬(0xD800 ≤ c ∧ c ≤ 0xDFFF)

end Sys2Proof.Machine
end

