-- ==== Sys2Proof/Certificates/Slice0/Obligations.lean ====
section
/-! DEFINITION. The statements for the provers, each with the rules of spec/ it rests on. In all of them `s` is any state, also
one that no run reaches, unless a premise says otherwise. -/

open Sys2Proof Sys2Proof.Machine

/-! ### Decoding and encoding -/

/-- A few words of 30_encoding.md R74 and R75, and the six state codes of R82, decode to what they stand for. -/
def Obligations.CommandWordsDecode : Prop :=
  decode (.command 0x00000000#32) = .ok .nop ∧
  decode (.command 0x10010080#32) = .ok (.bcCfg 128 256 .standard) ∧
  decode (.command 0x10110080#32) = .ok (.bcCfg 128 256 .alternate) ∧
  decode (.command 0x10004020#32) = .ok (.bcCfg 32 64 .standard) ∧
  decode (.command 0x11000000#32) = .ok .bcRekey ∧
  decode (.command 0x21000000#32) = .ok .csDec ∧
  decode (.command 0x3F000000#32) = .ok .hsAbort ∧
  decode (.state 2#4) = .ok .stepValidateRequest ∧
  decode (.state 3#4) = .ok .stepDecryptSessionKey ∧
  decode (.state 4#4) = .ok .stepDecryptPayload ∧
  decode (.state 5#4) = .ok .stepVerifySignature ∧
  decode (.state 6#4) = .ok .stepVerifyHash ∧
  decode (.state 7#4) = .ok .stepBuildResponse

/-- Decoding the code of a well-formed instruction gives the instruction back, every operand of `BC.CFG` included
(30_encoding.md R73 to R75, R82). -/
def Obligations.DecodeEncodeRoundTrip : Prop := ∀ i : Instr, i.wellFormed = true → decode (encode i) = .ok i

/-- Each code has one meaning: what decodes is well formed and is the encoding of what it decodes to. -/
def Obligations.EncodeDecodeRoundTrip : Prop :=
  ∀ (c : Code) (i : Instr), decode c = .ok i → i.wellFormed = true ∧ encode i = c

/-- The ten rows select exactly the words that decode, no word is selected twice, and the row selected is the row of the
instruction; the six sequencer steps have no row of this kind (30_encoding.md R77). -/
def Obligations.RowsSelectWhatDecodes : Prop :=
  (∀ (w : BitVec 32) (i : Instr), decodeCommand w = .ok i → ∃ r, i.row = some r ∧ r.selects w = true) ∧
  (∀ (w : BitVec 32) (r : CommandRow), r ∈ commandRows → r.selects w = true → ∃ i, decodeCommand w = .ok i ∧ i.row = some r) ∧
  (∀ (w : BitVec 32) (r q : CommandRow), r ∈ commandRows → q ∈ commandRows → r.selects w = true → q.selects w = true → r = q) ∧
  (∀ r ∈ commandRows, r.mask = if r.pattern = 0x10000000#32 then 0xFFE00000#32 else 0xFFFFFFFF#32) ∧
  commandRows.length = 10 ∧ ∀ i c, encode i = .state c → i.row = none

/-- Reserved words (30_encoding.md R76): an opcode outside the map, a reserved bit of `ARG` set; each is rejected when
written to `CMD`, in every state, and no word but 0 is `NOP`. -/
def Obligations.ReservedWordsAreRejected : Prop :=
  let map : List (BitVec 8) := [0x00, 0x10, 0x11, 0x12, 0x13, 0x20, 0x21, 0x30, 0x31, 0x3F]
  ∀ (w : BitVec 32) (s : State),
    (w.extractLsb' 24 8 ∉ map → serveAccess (.write (.cmd w)) s = .next { s with res := .rejected, ill := true }) ∧
    (w.extractLsb' 24 8 = 0x10#8 → w.extractLsb' 21 3 ≠ 0 →
      serveAccess (.write (.cmd w)) s = .next { s with res := .rejected, ill := true }) ∧
    (w.extractLsb' 24 8 ∈ map → w.extractLsb' 24 8 ≠ 0x10#8 → w.extractLsb' 0 24 ≠ 0 →
      serveAccess (.write (.cmd w)) s = .next { s with res := .rejected, ill := true }) ∧
    (decode (.command w) = .ok .nop → w = 0) ∧
    ((List.range 256).filter fun n => decide (BitVec.ofNat 8 n ∉ map)).length = 246

/-! ### The step -/

/-- A step runs the decoded instruction: a command word at the head of the inbox, or the step `HSTATE` selects, is executed;
the step adds nothing but taking the event off the inbox; a word that does not decode is rejected (30_encoding.md R72,
42_handshake.md R146). -/
def Obligations.StepRunsTheDecodedInstruction : Prop :=
  ∀ s : State,
    (∀ w q i, s.env.inbox = .host (.write (.cmd w)) :: q → decode (.command w) = .ok i →
      i.wellFormed = true ∧ step s = exec i (s.withInbox q)) ∧
    (∀ w q e, s.env.inbox = .host (.write (.cmd w)) :: q → decode (.command w) = .error e →
      step s = .next (s.withInbox q).reject) ∧
    (∀ i, s.env.inbox = [] → decode (.state s.hstate.code) = .ok i → i.wellFormed = true ∧ step s = exec i s) ∧
    (∀ q i, s.env.inbox = .sequencer :: q → decode (.state s.hstate.code) = .ok i →
      i.wellFormed = true ∧ step s = exec i (s.withInbox q))

/-- The other events and the absence of one: a waiting state takes no step (60_exceptions.md R211), neither with no event
pending nor when the sequencer has its turn, which is then used up (log 6); a host read returns the register and changes
nothing of WTCORE (20_memory.md R61); a host write other
than of `CMD` is performed or dropped; `RESET` gives the initial state with parameters and ports as they were
(70_reset_and_hazards.md R215, R216, R218). -/
def Obligations.StepServesOtherEvents : Prop :=
  ∀ (s : State) (q : List Event),
    (∀ n, s.env.inbox = .host (.read n) :: q →
      step s = .next { s with env := { s.env with inbox := q, rdata := s.readReg n } }) ∧
    (∀ w, s.env.inbox = .host (.write w) :: q → (∀ c, w ≠ .cmd c) → step s = .next ((s.withInbox q).serveWrite w)) ∧
    (s.env.inbox = [] → s.hstate = .idle ∨ s.hstate = .awaitRequest ∨ s.hstate = .sent ∨ s.hstate = .closed →
      step s = .next s) ∧
    (s.env.inbox = .sequencer :: q → s.hstate = .idle ∨ s.hstate = .awaitRequest ∨ s.hstate = .sent ∨ s.hstate = .closed →
      step s = .next (s.withInbox q)) ∧
    (∀ e, decode (.state s.hstate.code) = .error e ↔
      (s.hstate = .idle ∨ s.hstate = .awaitRequest ∨ s.hstate = .sent ∨ s.hstate = .closed) ∧
        e = .noStep s.hstate.code) ∧
    (s.env.inbox = .reset :: q → step s = .next { State.reset with env := { s.env with inbox := q } })

/-- No combination of state and input stops the machine (70_reset_and_hazards.md R234). -/
def Obligations.StepNeverStops : Prop := ∀ s : State, ∃ t, step s = .next t

/-- An instruction placed by `withFetchWord` is run by the very next step: a command from the state as it is, a sequencer step
from the state whose `HSTATE` selects it. -/
def Obligations.PlacedInstructionRunsNext : Prop :=
  ∀ (s : State) (i : Instr), i.wellFormed = true →
    (∀ w, encode i = .command w → step (s.withFetchWord 32 w.toNat) = exec i s) ∧
    (∀ c, encode i = .state c → ∃ h, HState.code h = c ∧
      step (s.withFetchWord 4 c.toNat) = exec i { s with hstate := h } ∧
      step (s.withFetchWord 8 c.toNat) = exec i { s with hstate := h })

/-! ### Commands of the BC unit -/

/-- `NOP` (40_blockcipher.md R114): the all-zero word, `RES <- 0`, nothing else, in every state. -/
def Obligations.NopCompletes : Prop :=
  encode .nop = .command 0#32 ∧ ∀ s : State, exec .nop s = .next { s with res := .ok }

/-- `BC.CFG` (40_blockcipher.md R110) where it is admitted: a valid configuration, spelled as in 00_scope.md R11, is written
and clears the schedule; any other is rejected. -/
def Obligations.CfgCompletes : Prop :=
  ∀ (bs ks : Nat) (var : Variant) (s : State), s.hstate = .idle ∨ s.hstate = .sent ∨ s.hstate = .closed →
    let valid := bs % 2 = 0 ∧ 8 ≤ bs / 2 ∧ bs / 2 ≤ 64 ∧ ks % (bs / 2) = 0 ∧ 1 ≤ ks / (bs / 2) ∧ ks / (bs / 2) ≤ 72 ∧ ks ≤ 256
    (valid → ∃ c : Cfg, c.bs.toNat = bs ∧ c.ks.toNat = ks ∧ c.var = var ∧
      exec (.bcCfg bs ks var) s =
        .next { s with cfg := c, rk := List.replicate Config.numRounds 0, kvalid := false, res := .ok }) ∧
    (¬valid → exec (.bcCfg bs ks var) s = .next { s with res := .rejected, ill := true })

/-- `BC.REKEY` (40_blockcipher.md R111) where it is admitted: reject before `DomainError` before the expansion. -/
def Obligations.RekeyCompletes : Prop :=
  ∀ s : State, s.hstate = .idle ∨ s.hstate = .sent ∨ s.hstate = .closed →
    (validCfg s.cfg.bs.toNat s.cfg.ks.toNat = true → s.key.toNat < 2 ^ s.cfg.ks.toNat →
      exec .bcRekey s =
        .next { s with rk := scheduleCells s.env.z s.cfg.dim s.cfg.m s.key.toNat, kvalid := true, res := .ok }) ∧
    (validCfg s.cfg.bs.toNat s.cfg.ks.toNat = true → 2 ^ s.cfg.ks.toNat ≤ s.key.toNat →
      exec .bcRekey s = .next { s with res := .error .domainError }) ∧
    (validCfg s.cfg.bs.toNat s.cfg.ks.toNat = false → exec .bcRekey s = .next { s with res := .rejected, ill := true })

/-- `BC.ENC` (40_blockcipher.md R112) where it is admitted: reject before `DomainError` before `DOUT <- ENC(DIN)`. -/
def Obligations.BlockEncryptCompletes : Prop :=
  ∀ s : State, s.hstate = .idle ∨ s.hstate = .sent ∨ s.hstate = .closed →
    (s.kvalid = true → s.din.toNat < 2 ^ s.cfg.bs.toNat →
      exec .bcEnc s =
        .next { s with dout := BitVec.ofNat 128 (encBlock s.cfg.var s.cfg.dim s.rk s.din.toNat), res := .ok }) ∧
    (s.kvalid = true → 2 ^ s.cfg.bs.toNat ≤ s.din.toNat → exec .bcEnc s = .next { s with res := .error .domainError }) ∧
    (s.kvalid = false → exec .bcEnc s = .next { s with res := .rejected, ill := true })

/-- `BC.DEC` (40_blockcipher.md R113) where it is admitted. -/
def Obligations.BlockDecryptCompletes : Prop :=
  ∀ s : State, s.hstate = .idle ∨ s.hstate = .sent ∨ s.hstate = .closed →
    (s.kvalid = true → s.din.toNat < 2 ^ s.cfg.bs.toNat →
      exec .bcDec s =
        .next { s with dout := BitVec.ofNat 128 (decBlock s.cfg.var s.cfg.dim s.rk s.din.toNat), res := .ok }) ∧
    (s.kvalid = true → 2 ^ s.cfg.bs.toNat ≤ s.din.toNat → exec .bcDec s = .next { s with res := .error .domainError }) ∧
    (s.kvalid = false → exec .bcDec s = .next { s with res := .rejected, ill := true })

/-- The schedule of a machine that keeps its invariant gives results in range, so `DOUT` holds the result of `BC.ENC` and of
`BC.DEC` zero-extended, nothing cut off (10_state.md R48 (c), 40_blockcipher.md R112, R113). -/
def Obligations.BlockResultsInRange : Prop :=
  ∀ s : State, s.Inv → s.kvalid = true → s.din.toNat < 2 ^ s.cfg.bs.toNat →
    encBlock s.cfg.var s.cfg.dim s.rk s.din.toNat < 2 ^ s.cfg.bs.toNat ∧
    decBlock s.cfg.var s.cfg.dim s.rk s.din.toNat < 2 ^ s.cfg.bs.toNat ∧ s.cfg.bs.toNat ≤ 128

/-- After a successful `BC.REKEY` a block encrypted and decrypted again is what it was (40_blockcipher.md R117). -/
def Obligations.BlockRoundTrip : Prop :=
  ∀ s t : State, exec .bcRekey s = .next t → t.res = .ok →
    ∀ p : BitVec 128, p.toNat < 2 ^ t.cfg.bs.toNat →
      ∃ u v, exec .bcEnc { t with din := p } = .next u ∧ u.res = .ok ∧
        exec .bcDec { u with din := u.dout } = .next v ∧ v.res = .ok ∧ v.dout = p

/-- Writing `KEY` where the host may changes `KEY` alone: the schedule stays, and `BC.ENC` still runs under the old key
(70_reset_and_hazards.md R222, 10_state.md R24). -/
def Obligations.StaleScheduleStays : Prop :=
  ∀ (s : State) (k : BitVec 256), s.hstate = .idle ∨ s.hstate = .sent ∨ s.hstate = .closed →
    serveAccess (.write (.key k)) s = .next { s with key := k } ∧
    ∀ t, exec .bcEnc s = .next t → exec .bcEnc { s with key := k } = .next { t with key := k }

/-! ### Functions of the BC unit -/

/-- Rotations as sums of their two parts, which never overlap; they stay in the word, undo each other, and by the full width
do nothing (40_blockcipher.md R100, R101). -/
def Obligations.RotationsUndoEachOther : Prop :=
  ∀ dim x s : Nat, 0 < s → s ≤ dim → x < 2 ^ dim →
    rol dim x s = x * 2 ^ s % 2 ^ dim + x / 2 ^ (dim - s) ∧ ror dim x s = x * 2 ^ (dim - s) % 2 ^ dim + x / 2 ^ s ∧
    rol dim x s < 2 ^ dim ∧ ror dim x s < 2 ^ dim ∧ ror dim (rol dim x s) s = x ∧ rol dim (ror dim x s) s = x ∧
    rol dim x dim = x ∧ ror dim x dim = x

/-- The two round functions (40_blockcipher.md R102 to R104): what each computes, and the examples of R102 and R103; closed on
words; their values at all zeros and at all ones; the XOR variant is linear over XOR and the AND variant is not. -/
def Obligations.RoundFunctionCorners : Prop :=
  (∀ dim x,
    roundFn .standard dim x = (rol dim x 1 &&& rol dim x 8) ^^^ rol dim x 2 ∧
    roundFn .alternate dim x = (rol dim x 1 ^^^ rol dim x 8) ^^^ rol dim x 2) ∧
  (roundFn .standard 16 0x1234 = 0x6CD0 ∧ roundFn .standard 64 0x0123456789ABCDEF = 0x06C9171725EABCBC) ∧
  (roundFn .alternate 16 0x1234 = 0x58AA ∧ roundFn .alternate 64 0x0123456789ABCDEF = 0x258EF8D89E354363) ∧
  (∀ dim, 8 ≤ dim →
    roundFn .standard dim 0 = 0 ∧ roundFn .alternate dim 0 = 0 ∧
    roundFn .standard dim (2 ^ dim - 1) = 0 ∧ roundFn .alternate dim (2 ^ dim - 1) = 2 ^ dim - 1 ∧
    (∀ v x, x < 2 ^ dim → roundFn v dim x < 2 ^ dim) ∧
    (∀ x y, x < 2 ^ dim → y < 2 ^ dim →
      roundFn .alternate dim (x ^^^ y) = roundFn .alternate dim x ^^^ roundFn .alternate dim y)) ∧
  (∃ x y, x < 2 ^ 16 ∧ y < 2 ^ 16 ∧
    roundFn .standard 16 (x ^^^ y) ≠ roundFn .standard 16 x ^^^ roundFn .standard 16 y)

/-- One Feistel round, and that it undoes itself with the halves exchanged, whatever the round function
(40_blockcipher.md R105); an example of each variant at 64 bits (95_test_vectors.md for XOR). -/
def Obligations.FeistelRoundUndoesItself : Prop :=
  ∀ (v : Variant) (dim a b k : Nat),
    fround v dim a b k = (b ^^^ roundFn v dim a ^^^ k, a) ∧
    fround v dim (fround v dim a b k).2 (fround v dim a b k).1 k = (b, a) ∧
    (8 ≤ dim → fround v dim 0 0 0 = (0, 0)) ∧
    fround .standard 16 0x1234 0xABCD 0x0F0F = (0xC812, 0x1234) ∧
    fround .standard 64 0x0123456789ABCDEF 0xFEDCBA9876543210 0x0F0E0D0C0B0A0908 =
      (0xF71BA08358B487A4, 0x0123456789ABCDEF) ∧
    fround .alternate 64 0x0123456789ABCDEF 0xFEDCBA9876543210 0x0F0E0D0C0B0A0908 =
      (0xD45C4F4CE36B787B, 0x0123456789ABCDEF)

/-- The key words seed the schedule and the recurrence makes the rest (40_blockcipher.md R106, R107), as equations on the
finished list. -/
def Obligations.ScheduleFollowsTheRecurrence : Prop :=
  ∀ (z : BitVec 62) (dim m key : Nat), 1 ≤ m → m ≤ 72 →
    let rk := fun i => (keySchedule z dim m key).getD i 0
    (keySchedule z dim m key).length = 72 ∧
    (∀ i, i < m → rk i = key / 2 ^ (i * dim) % 2 ^ dim) ∧
    (∀ i, m ≤ i → i < 72 →
      let t0 := ror dim (rk (i - 1)) 3
      let t1 := if m = 4 then t0 ^^^ rk (i - 3) else t0
      let t2 := t1 ^^^ ror dim t1 1 ^^^ rk (i - m)
      rk i = t2 ^^^ (2 ^ dim - 4) ^^^ (if z.getLsbD ((i - m) % 62) then 1 else 0))

/-- Every round key of a valid configuration is a `dim`-bit word, so a 64-bit cell holds it whole (10_state.md R23, R48 (b),
40_blockcipher.md R116). -/
def Obligations.RoundKeysInRange : Prop :=
  ∀ (z : BitVec 62) (bs ks key : Nat), validCfg bs ks = true →
    (∀ k ∈ keySchedule z (bs / 2) (ks / (bs / 2)) key, k < 2 ^ (bs / 2)) ∧
    (scheduleCells z (bs / 2) (ks / (bs / 2)) key).map BitVec.toNat = keySchedule z (bs / 2) (ks / (bs / 2)) key

/-- Different master keys in range give different schedules: changing any bit changes a round key (40_blockcipher.md R115). -/
def Obligations.KeyChangesTheSchedule : Prop :=
  ∀ (z : BitVec 62) (bs ks k1 k2 : Nat), validCfg bs ks = true → k1 < 2 ^ ks → k2 < 2 ^ ks → k1 ≠ k2 →
    scheduleCells z (bs / 2) (ks / (bs / 2)) k1 ≠ scheduleCells z (bs / 2) (ks / (bs / 2)) k2

/-- `ENC` runs the rounds in increasing order of the round key (40_blockcipher.md R108); `DEC` in decreasing order with the
halves' roles exchanged (R109); both rejoin the halves as they stand. -/
def Obligations.BlockFunctionsRunTheRounds : Prop :=
  ∀ (v : Variant) (dim p : Nat) (rk : List Word) (l r : Nat → Nat),
    (l 0 = p / 2 ^ dim → r 0 = p % 2 ^ dim →
      (∀ i, i < rk.length → (l (i + 1), r (i + 1)) = fround v dim (l i) (r i) (rk.getD i 0).toNat) →
      encBlock v dim rk p = (l rk.length <<< dim) ||| r rk.length) ∧
    (l rk.length = p / 2 ^ dim → r rk.length = p % 2 ^ dim →
      (∀ i, i < rk.length → (r i, l i) = fround v dim (r (i + 1)) (l (i + 1)) (rk.getD i 0).toNat) →
      decBlock v dim rk p = (l 0 <<< dim) ||| r 0)

/-- `DEC` and `ENC` undo each other on every block, for both variants and any round keys (40_blockcipher.md R109, R117). -/
def Obligations.DecryptInvertsEncrypt : Prop :=
  ∀ (v : Variant) (dim : Nat) (rk : List Word) (p : Nat), 8 ≤ dim → p < 2 ^ (2 * dim) →
    (∀ k ∈ rk, k.toNat < 2 ^ dim) →
    encBlock v dim rk p < 2 ^ (2 * dim) ∧ decBlock v dim rk p < 2 ^ (2 * dim) ∧
    decBlock v dim rk (encBlock v dim rk p) = p ∧ encBlock v dim rk (decBlock v dim rk p) = p

/-! ### Functions of the CS unit -/

/-- `bitlen` (00_scope.md R17). -/
def Obligations.BitlenMeasures : Prop :=
  bitlen 0 = 0 ∧ ∀ v k : Nat, 1 ≤ v → (bitlen v = k ↔ 2 ^ (k - 1) ≤ v ∧ v < 2 ^ k)

/-- `SPLIT` cuts full fields and one final partial field, most significant bits first, each in its width; the fields rejoin
to the value and pass `CB_OK` (41_counterstream.md R121, R130). -/
def Obligations.SplitCutsAndRejoins : Prop :=
  ∀ v n : Nat, v < 2 ^ n →
    (split v n).length = (n + 127) / 128 ∧
    (∀ i, i < n / 128 → (split v n)[i]? = some ⟨128, v / 2 ^ (n - 128 * (i + 1)) % 2 ^ 128⟩) ∧
    (n % 128 ≠ 0 → (split v n).getLast? = some ⟨n % 128, v % 2 ^ (n % 128)⟩) ∧
    (∀ b ∈ split v n, b.v < 2 ^ b.w) ∧ cbOk (split v n) = true ∧ joinFields (0, 0) (split v n) = (v, n)

/-- A field XOR-ed with the leading bits of its keystream block keeps its width, and twice gives it back; a full field takes
the whole block (41_counterstream.md R123, R124). -/
def Obligations.FieldXorKeepsWidth : Prop :=
  ∀ k w v : Nat, k < 2 ^ 128 → 1 ≤ w → w ≤ 128 → v < 2 ^ w →
    xpart k w v = v ^^^ (k / 2 ^ (128 - w)) ∧ xpart k w v < 2 ^ w ∧ xpart k w (xpart k w v) = v ∧ xpart k 128 v = v ^^^ k

/-- `STREAM_ENC` XORs field `i` with the leading bits of keystream block `i` and keeps its width (41_counterstream.md R125,
R132), and so does decryption to entry `i` before it joins the entries, first entry most significant (R131); `STREAM_DEC` of
`STREAM_ENC` gives the message and its bit length, for every message and keystream (R134). -/
def Obligations.StreamRoundTrip : Prop :=
  (∀ (ks : Nat → Nat) (l : List Block) (i : Nat),
    (xorFields ks 0 l)[i]? = (l[i]?).map fun b => ⟨b.w, b.v ^^^ (ks i / 2 ^ (128 - b.w))⟩) ∧
  joinFields (0, 0) [] = (0, 0) ∧
  (∀ (l : List Block) (b : Block), joinFields (0, 0) (l ++ [b]) =
    (((joinFields (0, 0) l).1 <<< b.w) ||| b.v, (joinFields (0, 0) l).2 + b.w)) ∧
  (∀ (ks : Nat → Nat) (p i : Nat),
    (streamEnc ks p)[i]? = ((split p (bitlen p))[i]?).map fun b => ⟨b.w, b.v ^^^ (ks i / 2 ^ (128 - b.w))⟩) ∧
  ∀ (ks : Nat → Nat) (p : Nat), (∀ i, ks i < 2 ^ 128) →
    streamDec ks (streamEnc ks p) = .ok (p, bitlen p) ∧ cbOk (streamEnc ks p) = true ∧
    (streamEnc ks p).length = (bitlen p + 127) / 128 ∧ ((streamEnc ks p).map Block.w).sum = bitlen p

/-! ### Commands of the CS unit -/

/-- `CS.ENC` (41_counterstream.md R129) where it is admitted, with `t` the sample of `TOD_US`: it completes exactly while the
counter stays below `2^128` (always for at most `2^64` blocks), else `DomainError` with nothing of WTCORE written. Two points
are the model's choices: that the new list is all of `CBLK`, with no older cell left beyond `CBN` (log 18), and the clause on
`env`, that the port's sample is used up either way (log 3). -/
def Obligations.StreamEncryptCompletes : Prop :=
  ∀ s : State, s.hstate = .idle ∨ s.hstate = .sent ∨ s.hstate = .closed →
    let t := s.todSample
    let rk := scheduleCells s.env.z 64 4 s.key.toNat
    let ks := fun i => encBlock s.env.protoVariant 64 rk (t.toNat * 2 ^ 64 + i)
    let n := bitlen s.msg
    (t.toNat * 2 ^ 64 + (n + 127) / 128 ≤ 2 ^ 128 →
      exec .csEnc s =
        .next { s with
          todLast := t, nonce := t ++ 0#64, cfg := ⟨128, 256, s.env.protoVariant⟩, rk := rk, kvalid := true,
          cblk := streamEnc ks s.msg, cbn := (n + 127) / 128, mlen := n, res := .ok, env := s.env.todTaken }) ∧
    (2 ^ 128 < t.toNat * 2 ^ 64 + (n + 127) / 128 →
      exec .csEnc s = .next { s with res := .error .domainError, env := s.env.todTaken }) ∧
    ((n + 127) / 128 ≤ 2 ^ 64 → t.toNat * 2 ^ 64 + (n + 127) / 128 ≤ 2 ^ 128)

/-- `CS.DEC` (41_counterstream.md R133) where it is admitted: list shape (`CB_OK`, spelled out as in R130), then counter range,
then bit length, in that order (60_exceptions.md R201), else `MSG` and `MLEN` take the joined plaintext and the configuration
and schedule of the protocol stay behind. The list is `CBLK[0..CBN)`; that an entry no operation has written is a free value
is the model's choice (log 10). -/
def Obligations.StreamDecryptCompletes : Prop :=
  (∀ l : List Block, cbOk l = true ↔
    ∀ i b, l[i]? = some b →
      b.v < 2 ^ b.w ∧ (i + 1 < l.length → b.w = 128) ∧ (i + 1 = l.length → 1 ≤ b.w ∧ b.w ≤ 128)) ∧
  (∀ s : State, s.blocks.length = s.cbn ∧
    ∀ i, i < s.cbn → s.blocks[i]? = some (s.cblk.getD i (Config.unlistedBlock i))) ∧
  ∀ s : State, s.hstate = .idle ∨ s.hstate = .sent ∨ s.hstate = .closed →
    let rk := scheduleCells s.env.z 64 4 s.key.toNat
    let ks := fun i => encBlock s.env.protoVariant 64 rk (s.nonce.toNat + i)
    let pn := joinFields (0, 0) (xorFields ks 0 s.blocks)
    (cbOk s.blocks = false → exec .csDec s = .next { s with res := .error .framingError }) ∧
    (cbOk s.blocks = true → 2 ^ 128 < s.nonce.toNat + s.cbn → exec .csDec s = .next { s with res := .error .domainError }) ∧
    (cbOk s.blocks = true → s.nonce.toNat + s.cbn ≤ 2 ^ 128 → bitlen pn.1 ≠ pn.2 →
      exec .csDec s = .next { s with res := .error .framingError }) ∧
    (cbOk s.blocks = true → s.nonce.toNat + s.cbn ≤ 2 ^ 128 → bitlen pn.1 = pn.2 →
      exec .csDec s =
        .next { s with
          cfg := ⟨128, 256, s.env.protoVariant⟩, rk := rk, kvalid := true, msg := pn.1, mlen := pn.2, res := .ok })

/-- After a successful `CS.ENC`, `CS.DEC` in any admitting state with the same `KEY`, `NONCE`, `CBLK`, `CBN` and the same
parameters gives the message and its bit length back (41_counterstream.md R134). -/
def Obligations.CsEncThenDecRestoresMessage : Prop :=
  ∀ s t u : State, exec .csEnc s = .next t → t.res = .ok →
    u.key = t.key → u.nonce = t.nonce → u.cblk = t.cblk → u.cbn = t.cbn →
    u.env.z = t.env.z → u.env.protoVariant = t.env.protoVariant →
    u.hstate = .idle ∨ u.hstate = .sent ∨ u.hstate = .closed →
    ∃ v, exec .csDec u = .next v ∧ v.res = .ok ∧ v.msg = s.msg ∧ v.mlen = bitlen s.msg

/-- The timestamp (10_state.md R44, 41_counterstream.md R126): no instruction takes `TOD_LAST` back and only `CS.ENC` writes it;
of the steps of the machine only one that serves RESET takes it back, to 0 (70_reset_and_hazards.md R216, R218); the nonce is
`t * 2^64`, and `2^64` counter values fit above it. That the sample is the one the port has queued, where the port's law admits
it, is how the model holds the port (log 3). -/
def Obligations.OnlyResetTakesTodLastBack : Prop :=
  (∀ (i : Instr) (s t : State), exec i s = .next t →
    s.todLast.toNat ≤ t.todLast.toNat ∧ (i ≠ .csEnc → t.todLast = s.todLast)) ∧
  (∀ s t : State, step s = .next t →
    (s.env.inbox.head? = some .reset → t.todLast = 0) ∧
    (s.env.inbox.head? ≠ some .reset → s.todLast.toNat ≤ t.todLast.toNat)) ∧
  (∀ s : State, s.todLast.toNat ≤ s.todSample.toNat) ∧
  (∀ (s : State) (t : BitVec 64) (q : List (BitVec 64)), s.env.todQueue = t :: q → s.todLast.toNat ≤ t.toNat →
    s.todSample = t) ∧
  ∀ t : BitVec 64, (nonceOf t).toNat = t.toNat * 2 ^ 64 ∧ ∀ i, i < 2 ^ 64 → (nonceOf t).toNat + i < 2 ^ 128

/-! ### Commands of the HS unit -/

/-- `HS.START` (42_handshake.md R141, R160) where it is admitted: with both moduli loaded it clears the session, its outputs
and its flags and waits for a request; else it is rejected. -/
def Obligations.StartCompletes : Prop :=
  ∀ s : State, s.hstate = .idle ∨ s.hstate = .sent ∨ s.hstate = .closed →
    (1 ≤ s.pubN → 1 ≤ s.privN →
      exec .hsStart s =
        .next { s with
          key := 0, rk := List.replicate Config.numRounds 0, kvalid := false, nonce := 0, cbn := 0, cblk := [], rxlen := 0, rxbuf := [],
          rqSk := 0, rqPl := 0, rqPlbits := 0, kdKey := 0, kdTod := 0, kdCanon := [], adCanon := [], adHash := 0, sig := 0,
          msg := 0, mlen := 0, newkey := 0, txlen := 0, txbuf := [], txvalid := false,
          herr := none, sigok := false, hashok := false, hstate := .awaitRequest, res := .ok }) ∧
    (s.pubN = 0 ∨ s.privN = 0 → exec .hsStart s = .next { s with res := .rejected, ill := true })

/-- `HS.RX` (42_handshake.md R142): in `AWAIT_REQUEST` the request goes to validation, unchecked; elsewhere the command is
rejected. -/
def Obligations.RxCompletes : Prop :=
  ∀ s : State,
    (s.hstate = .awaitRequest → exec .hsRx s = .next { s with hstate := .validateRequest, res := .ok }) ∧
    (s.hstate ≠ .awaitRequest → exec .hsRx s = .next { s with res := .rejected, ill := true })

/-- `HS.ABORT` (42_handshake.md R143, R160): in `IDLE` nothing but `RES`, in every other state the session is released and
closed with `HERR` as it was. -/
def Obligations.AbortCompletes : Prop :=
  ∀ s : State,
    (s.hstate = .idle → exec .hsAbort s = .next { s with res := .ok }) ∧
    (s.hstate ≠ .idle →
      exec .hsAbort s =
        .next { s with
          key := 0, rk := List.replicate Config.numRounds 0, kvalid := false, nonce := 0, cbn := 0, cblk := [], rxlen := 0, rxbuf := [],
          rqSk := 0, rqPl := 0, rqPlbits := 0, kdKey := 0, kdTod := 0, kdCanon := [], adCanon := [], adHash := 0, sig := 0,
          msg := 0, mlen := 0, newkey := 0, txlen := 0, txbuf := [], txvalid := false,
          hstate := .closed, res := .ok })

/-! ### The sequencer steps -/

/-- Taking an error (60_exceptions.md R196, R197, 42_handshake.md R160): a command's error writes `RES` alone; a step's error
clears the session and its outputs, records the error and closes. -/
def Obligations.TakingAnError : Prop :=
  ∀ (s : State) (e : WtError),
    s.takeError .command e = { s with res := .error e } ∧
    s.takeError .sequencer e =
      { s with
        key := 0, rk := List.replicate Config.numRounds 0, kvalid := false, nonce := 0, cbn := 0, cblk := [], rxlen := 0, rxbuf := [],
        rqSk := 0, rqPl := 0, rqPlbits := 0, kdKey := 0, kdTod := 0, kdCanon := [], adCanon := [], adHash := 0, sig := 0,
        msg := 0, mlen := 0, newkey := 0, txlen := 0, txbuf := [], txvalid := false,
        herr := some e, hstate := .closed }

/-- Step `VALIDATE_REQUEST` (42_handshake.md R150). The empty body and a body that is no UTF-8 are refused whatever the codec is
(R150; log 21). -/
def Obligations.ValidateRequestCompletes : Prop :=
  ∀ s : State, s.hstate = .validateRequest →
    (∀ body r, frameCheck (s.rxbuf.slice s.rxlen) 0x31#8 = .ok body → s.env.parseRequest body = some r →
      r.pl < 2 ^ r.plbits →
      exec .stepValidateRequest s =
        .next { s with rqSk := r.sk, rqPl := r.pl, rqPlbits := r.plbits, hstate := .decryptSessionKey }) ∧
    (∀ e, frameCheck (s.rxbuf.slice s.rxlen) 0x31#8 = .error e →
      exec .stepValidateRequest s = .next (s.takeError .sequencer .framingError)) ∧
    (∀ body, frameCheck (s.rxbuf.slice s.rxlen) 0x31#8 = .ok body → s.env.parseRequest body = none →
      exec .stepValidateRequest s = .next (s.takeError .sequencer .framingError)) ∧
    (∀ body r, frameCheck (s.rxbuf.slice s.rxlen) 0x31#8 = .ok body → s.env.parseRequest body = some r →
      2 ^ r.plbits ≤ r.pl → exec .stepValidateRequest s = .next (s.takeError .sequencer .framingError)) ∧
    (∀ body, frameCheck (s.rxbuf.slice s.rxlen) 0x31#8 = .ok body → body = [] ∨ utf8Decode body = none →
      exec .stepValidateRequest s = .next (s.takeError .sequencer .framingError))

/-- Step `DECRYPT_SESSION_KEY` (42_handshake.md R151), with the private modulus loaded. Bytes that are no text, the empty text
and `plain = 0` are refused whatever the codec is (R151; log 21). -/
def Obligations.DecryptSessionKeyCompletes : Prop :=
  ∀ s : State, s.hstate = .decryptSessionKey → 1 ≤ s.privN →
    let text := utf8Decode (leBytes (s.rqSk ^ s.privD % s.privN))
    (∀ kd, text.bind s.env.parseKeydata = some kd →
      exec .stepDecryptSessionKey s =
        .next { s with kdKey := kd.key, kdTod := kd.tod, kdCanon := kd.canon, hstate := .decryptPayload }) ∧
    (text.bind s.env.parseKeydata = none →
      exec .stepDecryptSessionKey s = .next (s.takeError .sequencer .keyRecoveryError)) ∧
    (text = none ∨ text = some [] ∨ s.rqSk ^ s.privD % s.privN = 0 →
      exec .stepDecryptSessionKey s = .next (s.takeError .sequencer .keyRecoveryError))

/-- Step `DECRYPT_PAYLOAD` (42_handshake.md R153): ranges and counter, then bit length, then text and structure, else the
cipher registers, the message and the payload's fields are written. Bytes that are no text, the empty text and a payload field
of no bits are refused whatever the codec is (R153; log 21). That the new list is all of `CBLK` is the model's choice (log 18). -/
def Obligations.DecryptPayloadCompletes : Prop :=
  ∀ s : State, s.hstate = .decryptPayload →
    let l := split s.rqPl s.rqPlbits
    let rk := scheduleCells s.env.z 64 4 s.kdKey
    let ks := fun i => encBlock s.env.protoVariant 64 rk (s.kdTod + i)
    let pn := joinFields (0, 0) (xorFields ks 0 l)
    let payload := (utf8Decode (leBytes pn.1)).bind s.env.parsePayload
    let inRange := s.kdKey < 2 ^ 256 ∧ s.kdTod < 2 ^ 128 ∧ s.kdTod + (s.rqPlbits + 127) / 128 ≤ 2 ^ 128
    (∀ p, inRange → bitlen pn.1 = pn.2 → payload = some p →
      exec .stepDecryptPayload s =
        .next { s with
          key := BitVec.ofNat 256 s.kdKey, nonce := BitVec.ofNat 128 s.kdTod, cblk := l, cbn := (s.rqPlbits + 127) / 128,
          cfg := ⟨128, 256, s.env.protoVariant⟩, rk := rk, kvalid := true, msg := pn.1, mlen := pn.2,
          adCanon := p.adCanon, adHash := p.adHash, sig := p.sig, hstate := .verifySignature }) ∧
    (¬inRange → exec .stepDecryptPayload s = .next (s.takeError .sequencer .domainError)) ∧
    (inRange → bitlen pn.1 ≠ pn.2 → exec .stepDecryptPayload s = .next (s.takeError .sequencer .framingError)) ∧
    (inRange → bitlen pn.1 = pn.2 → payload = none →
      exec .stepDecryptPayload s = .next (s.takeError .sequencer .payloadDecodeError)) ∧
    (inRange → bitlen pn.1 = pn.2 → utf8Decode (leBytes pn.1) = none ∨ utf8Decode (leBytes pn.1) = some [] →
      exec .stepDecryptPayload s = .next (s.takeError .sequencer .payloadDecodeError)) ∧
    (inRange → s.rqPlbits = 0 → exec .stepDecryptPayload s = .next (s.takeError .sequencer .payloadDecodeError))

/-- Step `VERIFY_SIGNATURE` (42_handshake.md R154), with the public modulus loaded. -/
def Obligations.VerifySignatureCompletes : Prop :=
  ∀ s : State, s.hstate = .verifySignature → 1 ≤ s.pubN →
    (s.sig ^ s.pubE % s.pubN = leInt (sha3_512 s.adCanon) →
      exec .stepVerifySignature s = .next { s with sigok := true, hstate := .verifyHash }) ∧
    (s.sig ^ s.pubE % s.pubN ≠ leInt (sha3_512 s.adCanon) →
      exec .stepVerifySignature s = .next (s.takeError .sequencer .signatureInvalid))

/-- Step `VERIFY_HASH` (42_handshake.md R155). -/
def Obligations.VerifyHashCompletes : Prop :=
  ∀ s : State, s.hstate = .verifyHash →
    (leInt (sha3_512 s.kdCanon) = s.adHash →
      exec .stepVerifyHash s = .next { s with hashok := true, hstate := .buildResponse }) ∧
    (leInt (sha3_512 s.kdCanon) ≠ s.adHash →
      exec .stepVerifyHash s = .next (s.takeError .sequencer .sessionKeyHashMismatch))

/-- Step `BUILD_RESPONSE` (42_handshake.md R157) with the draw `k`: the frame and the fresh key go out and the session is
discarded; a body no frame holds closes the session. Two points are the model's choices: that `TXBUF` reads 0 past the frame
(log 12), and the clauses on `env`, that the draw is the one the port has queued and is used up either way (log 4). -/
def Obligations.BuildResponseCompletes : Prop :=
  ∀ s : State, s.hstate = .buildResponse →
    let k := s.env.rngRaw
    let body := s.env.buildResponse k (leInt (sha3_512 (s.env.respCanon k)))
    (∀ k' q, s.env.rngQueue = k' :: q → k = k') ∧
    (body.length ≤ 99999999 → ∃ buf : Memory,
      (∀ a, buf.read a = (frameBuild 0x32#8 body).getD a 0) ∧
      exec .stepBuildResponse s =
        .next { s with
          newkey := k, txbuf := buf, txlen := 9 + body.length, txvalid := true,
          key := 0, rk := List.replicate Config.numRounds 0, kvalid := false, nonce := 0, cbn := 0, cblk := [], rxlen := 0, rxbuf := [],
          rqSk := 0, rqPl := 0, rqPlbits := 0, kdKey := 0, kdTod := 0, kdCanon := [], adCanon := [], adHash := 0, sig := 0,
          hstate := .sent, env := s.env.rngTaken }) ∧
    (99999999 < body.length →
      exec .stepBuildResponse s = .next { s.takeError .sequencer .framingError with env := s.env.rngTaken })

/-! ### The machine as a whole -/

/-- A command not admitted in the state is rejected: `RES <- 15`, `STATUS.ILL <- 1`, nothing else; `NOP` and `HS.ABORT` are
admitted in every state (30_encoding.md R78, R79). -/
def Obligations.AdmissionByState : Prop :=
  ∀ s : State,
    (s.hstate ≠ .idle → s.hstate ≠ .sent → s.hstate ≠ .closed →
      (∀ i ∈ [Instr.bcRekey, .bcEnc, .bcDec, .csEnc, .csDec, .hsStart],
        exec i s = .next { s with res := .rejected, ill := true }) ∧
      ∀ bs ks var, exec (.bcCfg bs ks var) s = .next { s with res := .rejected, ill := true }) ∧
    (s.hstate ≠ .awaitRequest → exec .hsRx s = .next { s with res := .rejected, ill := true }) ∧
    (∃ t, exec .nop s = .next t ∧ t.res = .ok) ∧ ∃ t, exec .hsAbort s = .next t ∧ t.res = .ok

/-- Each turn of the sequencer goes to the next state of the chain or closes the session with an error of that step, and never
writes `RES` or `STATUS.ILL` (42_handshake.md R146, R162, 60_exceptions.md R212). -/
def Obligations.SequencerFollowsTheChain : Prop :=
  ∀ (s t : State) (i : Instr), decode (.state s.hstate.code) = .ok i → exec i s = .next t →
    ((t.hstate = s.hstate.successor ∧ t.herr = s.herr) ∨
      (t.hstate = .closed ∧ ∃ e ∈ s.hstate.errors, t.herr = some e)) ∧
    t.res = s.res ∧ t.ill = s.ill

/-- A session left to itself ends, in `SENT` or `CLOSED`, within six turns of the sequencer (42_handshake.md R146, R162). -/
def Obligations.SessionEndsInSixTurns : Prop :=
  ∀ s : State, s.env.inbox = [] → s.hstate.seq = true →
    ∃ t : State, Host.Core.run Sys2Proof.core 6 s = .next t ∧ (t.hstate = .sent ∨ t.hstate = .closed)

/-- While the sequencer runs, no host access but `HS.ABORT` changes anything of WTCORE except `RES` and `STATUS.ILL`
(42_handshake.md R146, 30_encoding.md R81); `env.rdata` is the value a read hands to the host. -/
def Obligations.HostCannotDisturbASession : Prop :=
  ∀ (s t : State) (a : HostAccess), s.hstate.seq = true → a ≠ .write (.cmd 0x3F000000#32) → serveAccess a s = .next t →
    ∃ r ill v, t = s.withHostView r ill v

/-- What a sequencer step does depends on neither `RES` nor `STATUS.ILL` nor an earlier read, so with
`HostCannotDisturbASession` the outcome of a session does not depend on the host accesses served between its steps
(42_handshake.md R146). -/
def Obligations.StepsIgnoreTheHost : Prop :=
  ∀ (s t : State) (i : Instr) (r : CmdResult) (ill : Bool) (v : RegValue),
    decode (.state s.hstate.code) = .ok i → exec i s = .next t →
    exec i (s.withHostView r ill v) = .next (t.withHostView r ill v)

/-- The response is reached only through both verifications, signature first (42_handshake.md R156), and no instruction leads
back to `IDLE` (R144). -/
def Obligations.ResponseNeedsBothVerifications : Prop :=
  ∀ (i : Instr) (s t : State), exec i s = .next t → t.hstate ≠ s.hstate →
    (t.hstate = .verifyHash → i = .stepVerifySignature ∧ s.hstate = .verifySignature ∧
      modpow s.sig s.pubE s.pubN = leInt (sha3_512 s.adCanon) ∧ t.sigok = true) ∧
    (t.hstate = .buildResponse → i = .stepVerifyHash ∧ s.hstate = .verifyHash ∧
      leInt (sha3_512 s.kdCanon) = s.adHash ∧ t.hashok = true ∧ t.sigok = s.sigok) ∧
    (t.hstate = .sent → i = .stepBuildResponse ∧ s.hstate = .buildResponse) ∧ t.hstate ≠ .idle

/-- Every step keeps the invariant of the machine, from every state that has it (10_state.md R48 and the rules `Inv` names). -/
def Obligations.StepKeepsInvariant : Prop := ∀ s t : State, s.Inv → step s = .next t → t.Inv

/-- The reset state has the invariant, whatever the environment. -/
def Obligations.ResetHasInvariant : Prop := ∀ e : Env, State.Inv { State.reset with env := e }

/-- The reset table (10_state.md R47): every register, flag and buffer at its value. -/
def Obligations.ResetTable : Prop :=
  let r := State.reset
  r.cfg.bs = 0 ∧ r.cfg.ks = 0 ∧ r.cfg.var = .standard ∧ r.key = 0 ∧
  r.rk.length = 72 ∧ (∀ k ∈ r.rk, k = 0) ∧ r.kvalid = false ∧ r.din = 0 ∧ r.dout = 0 ∧ r.nonce = 0 ∧ r.msg = 0 ∧ r.mlen = 0 ∧
  r.cbn = 0 ∧ r.cblk = [] ∧ r.hstate = .idle ∧ r.herr = none ∧ r.pubE = 0 ∧ r.pubN = 0 ∧ r.privD = 0 ∧ r.privN = 0 ∧
  r.rxlen = 0 ∧ (∀ a, r.rxbuf.read a = 0) ∧ r.rqSk = 0 ∧ r.rqPl = 0 ∧ r.rqPlbits = 0 ∧
  r.kdKey = 0 ∧ r.kdTod = 0 ∧ r.kdCanon = [] ∧ r.adCanon = [] ∧ r.adHash = 0 ∧ r.sig = 0 ∧ r.sigok = false ∧ r.hashok = false ∧
  r.newkey = 0 ∧ r.txlen = 0 ∧ (∀ a, r.txbuf.read a = 0) ∧ r.txvalid = false ∧ r.res = .ok ∧ r.ill = false ∧ r.todLast = 0

/-! ### The host's view -/

/-- What a host read of each number returns (30_encoding.md R80, 20_memory.md R52): the readable registers their value, the
others and the reserved numbers 0; `BUF[0..n)` is the bytes 0 to `n - 1` of a buffer (00_scope.md R18). That `CBLK` comes as its `CBN` entries and `TXBUF` as its first `TXLEN` bytes is the model's
choice (log 15). -/
def Obligations.HostReadMap : Prop :=
  ∀ s : State,
    (∀ n ∈ [0x00#5, 0x04#5, 0x07#5, 0x0D#5, 0x0E#5, 0x0F#5, 0x14#5, 0x16#5, 0x17#5, 0x1B#5, 0x1C#5, 0x1D#5, 0x1E#5, 0x1F#5],
      s.readReg n = .number 0) ∧
    s.readReg 0x01 = .number s.res.code.toNat ∧ s.readReg 0x02 = .number s.status.toNat ∧
    s.readReg 0x03 = .number (s.cfg.bs.toNat + 256 * s.cfg.ks.toNat + 1048576 * variantBit s.cfg.var) ∧
    s.readReg 0x05 = .number s.din.toNat ∧ s.readReg 0x06 = .number s.dout.toNat ∧ s.readReg 0x08 = .number s.nonce.toNat ∧
    s.readReg 0x09 = .number s.mlen ∧ s.readReg 0x0A = .number s.msg ∧ s.readReg 0x0B = .number s.cbn ∧
    s.readReg 0x0C = .blocks s.blocks ∧ s.readReg 0x10 = .number s.hstate.code.toNat ∧
    s.readReg 0x11 = .number (herrCode s.herr).toNat ∧ s.readReg 0x12 = .number s.pubE ∧ s.readReg 0x13 = .number s.pubN ∧
    s.readReg 0x15 = .number s.privN ∧ s.readReg 0x18 = .number s.txlen ∧ s.readReg 0x19 = .bytes (s.txbuf.slice s.txlen) ∧
    s.readReg 0x1A = .number s.newkey.toNat ∧
    ∀ (m : Memory) (n : Nat), (m.slice n).length = n ∧ ∀ a, a < n → (m.slice n)[a]? = some (m.read a)

/-- No host read depends on `KEY`, `RK`, `PRIV_D`, `RXBUF`, `RXLEN`, a step-to-step register or `TOD_LAST`
(60_exceptions.md R205, 70_reset_and_hazards.md R235). -/
def Obligations.SecretsAreNotReadable : Prop :=
  ∀ (s : State) (n : BitVec 5) (key : BitVec 256) (rk : List Word) (rxbuf : Memory) (kdCanon adCanon : Bytes)
    (privD rxlen rqSk rqPl rqPlbits kdKey kdTod adHash sig : Nat) (todLast : BitVec 64),
    State.readReg { s with
      key := key, rk := rk, privD := privD, rxbuf := rxbuf, rxlen := rxlen, rqSk := rqSk, rqPl := rqPl, rqPlbits := rqPlbits,
      kdKey := kdKey, kdTod := kdTod, kdCanon := kdCanon, adCanon := adCanon, adHash := adHash, sig := sig,
      todLast := todLast } n = s.readReg n

/-- The write windows (30_encoding.md R81): between sessions every writable register, in `AWAIT_REQUEST` the received frame
alone, while the sequencer runs none; a write outside its window sets `STATUS.ILL` and nothing else. Each write goes to the
register of its number, and every number is some write's (R80). The model's choices: a write of `CBN` leaves the cells of `CBLK`
(log 11); one of `RXBUF` leaves 0 past the bytes given and `RXLEN` as it was (log 12); a buffer or length that does not fit is
dropped like a write outside its window (log 13); a natural of any size is taken (log 14). -/
def Obligations.WriteWindows : Prop :=
  ∀ s : State,
    (s.hstate = .idle ∨ s.hstate = .sent ∨ s.hstate = .closed →
      (∀ v, serveAccess (.write (.key v)) s = .next { s with key := v }) ∧
      (∀ v, serveAccess (.write (.din v)) s = .next { s with din := v }) ∧
      (∀ v, serveAccess (.write (.nonce v)) s = .next { s with nonce := v }) ∧
      (∀ v, serveAccess (.write (.msg v)) s = .next { s with msg := v }) ∧
      (∀ v, serveAccess (.write (.cbn v)) s = .next { s with cbn := v }) ∧
      (∀ l, serveAccess (.write (.cblk l)) s = .next { s with cblk := l, cbn := l.length }) ∧
      (∀ v, serveAccess (.write (.pubE v)) s = .next { s with pubE := v }) ∧
      (∀ v, serveAccess (.write (.pubN v)) s = .next { s with pubN := v }) ∧
      (∀ v, serveAccess (.write (.privD v)) s = .next { s with privD := v }) ∧
      (∀ v, serveAccess (.write (.privN v)) s = .next { s with privN := v })) ∧
    (s.hstate = .idle ∨ s.hstate = .sent ∨ s.hstate = .closed ∨ s.hstate = .awaitRequest →
      (∀ v, v ≤ 100000008 → serveAccess (.write (.rxlen v)) s = .next { s with rxlen := v }) ∧
      (∀ v, 100000008 < v → serveAccess (.write (.rxlen v)) s = .next { s with ill := true }) ∧
      (∀ b, b.length ≤ 100000008 → ∃ buf : Memory, (∀ a, buf.read a = b.getD a 0) ∧
        serveAccess (.write (.rxbuf b)) s = .next { s with rxbuf := buf }) ∧
      (∀ b, 100000008 < b.length → serveAccess (.write (.rxbuf b)) s = .next { s with ill := true })) ∧
    (s.hstate = .awaitRequest → ∀ w, (∀ c, w ≠ .cmd c) → (∀ v, w ≠ .rxlen v) → (∀ b, w ≠ .rxbuf b) →
      serveAccess (.write w) s = .next { s with ill := true }) ∧
    (s.hstate.seq = true → ∀ w, (∀ c, w ≠ .cmd c) → serveAccess (.write w) s = .next { s with ill := true }) ∧
    (∀ r, serveAccess (.write (.unwritable r)) s = .next { s with ill := true }) ∧
    (∀ w : BitVec 32, (HostWrite.cmd w).number = 0x00) ∧ (∀ v, (HostWrite.key v).number = 0x04) ∧
    (∀ v, (HostWrite.din v).number = 0x05) ∧ (∀ v, (HostWrite.nonce v).number = 0x08) ∧
    (∀ v, (HostWrite.msg v).number = 0x0A) ∧ (∀ v, (HostWrite.cbn v).number = 0x0B) ∧
    (∀ l, (HostWrite.cblk l).number = 0x0C) ∧ (∀ v, (HostWrite.pubE v).number = 0x12) ∧
    (∀ v, (HostWrite.pubN v).number = 0x13) ∧ (∀ v, (HostWrite.privD v).number = 0x14) ∧
    (∀ v, (HostWrite.privN v).number = 0x15) ∧ (∀ v, (HostWrite.rxlen v).number = 0x16) ∧
    (∀ b, (HostWrite.rxbuf b).number = 0x17) ∧ (∀ r, (HostWrite.unwritable r).number = r.number) ∧
    [UnwritableReg.res, .status, .cfg, .dout, .mlen, .hstate, .herr, .txlen, .txbuf, .newkey].map UnwritableReg.number =
      [0x01, 0x02, 0x03, 0x06, 0x09, 0x10, 0x11, 0x18, 0x19, 0x1A] ∧
    (List.finRange 9).map (fun i => (UnwritableReg.reserved i).number) =
      [0x07, 0x0D, 0x0E, 0x0F, 0x1B, 0x1C, 0x1D, 0x1E, 0x1F] ∧
    ∀ n : BitVec 5, ∃ w : HostWrite, w.number = n

/-- The codes of `HSTATE`, of the errors, of `RES` and of the variant in `CFG`, and the bits of `STATUS` in order from bit 0, bits 31:6 reading 0
(10_state.md R42, R43, 30_encoding.md R82, R83). -/
def Obligations.CodesAndStatusBits : Prop :=
  [HState.idle, .awaitRequest, .validateRequest, .decryptSessionKey, .decryptPayload, .verifySignature, .verifyHash,
    .buildResponse, .sent, .closed].map (fun h => h.code.toNat) = [0, 1, 2, 3, 4, 5, 6, 7, 8, 9] ∧
  [WtError.domainError, .framingError, .keyRecoveryError, .payloadDecodeError, .signatureInvalid,
    .sessionKeyHashMismatch].map (fun e => e.code.toNat) = [1, 2, 3, 4, 5, 6] ∧
  variantBit .standard = 0 ∧ variantBit .alternate = 1 ∧ herrCode none = 0 ∧ (∀ e, herrCode (some e) = e.code) ∧
  CmdResult.ok.code = 0 ∧ CmdResult.rejected.code = 15 ∧ (∀ e, (CmdResult.error e).code = e.code) ∧
  ∀ s : State,
    s.status.toNat =
      s.kvalid.toNat + 2 * s.ill.toNat + 4 * s.txvalid.toNat + 8 * s.sigok.toNat + 16 * s.hashok.toNat +
        32 * s.hstate.seq.toNat ∧
    (s.hstate.seq = true ↔ 2 ≤ s.hstate.code.toNat ∧ s.hstate.code.toNat ≤ 7)

/-! ### Frames, byte orders, primitives -/

/-- `frame_check` accepts exactly the frames `frame_build` makes, with the payload built in; its one error is `FramingError`
(30_encoding.md R88, R89); the length digits denote the length, most significant first, each an ASCII digit (R86, R87). -/
def Obligations.FrameCheckAcceptsExactlyFrames : Prop :=
  ∀ (t : Byte) (b : Bytes), t = 0x31#8 ∨ t = 0x32#8 ∨ t = 0x33#8 →
    (∀ p : Bytes, frameCheck b t = .ok p ↔ p.length ≤ 99999999 ∧ b = frameBuild t p) ∧
    (∀ e, frameCheck b t = .error e → e = .framingError) ∧
    (∀ p : Bytes, frameBuild t p = t :: (lengthDigits p.length ++ p)) ∧
    ∀ v : Nat, v ≤ 99999999 →
      digitsValue (lengthDigits v) = v ∧ (lengthDigits v).length = 8 ∧
      (∀ c ∈ lengthDigits v, 0x30 ≤ c.toNat ∧ c.toNat ≤ 0x39) ∧
      ∀ j, j < 8 → ((lengthDigits v).getD j 0).toNat = 0x30 + v / 10 ^ (7 - j) % 10

/-- `le_bytes` and `le_int` (43_external_primitives.md R172, R173): lengths, bytes, and that they undo each other where the
last byte is not zero; a digest has 64 bytes (R171), so its integer is below `2^512`. -/
def Obligations.LittleEndianBytes : Prop :=
  (∀ v : Nat, (leBytes v).length = (bitlen v + 7) / 8 ∧
    (∀ j, j < (leBytes v).length → ((leBytes v).getD j 0).toNat = v / 2 ^ (8 * j) % 256) ∧
    leInt (leBytes v) = v ∧ (leBytes v).getLast? ≠ some 0) ∧
  leInt [] = 0 ∧ (∀ (b : Bytes) (x : Byte), leInt (b ++ [x]) = leInt b + x.toNat * 256 ^ b.length) ∧
  (∀ b : Bytes, (sha3_512 b).length = 64 ∧ leInt (sha3_512 b) < 2 ^ 512) ∧
  (∀ b : Bytes, leInt b < 256 ^ b.length ∧ (leBytes (leInt b) = b ↔ b.getLast? ≠ some 0))

/-- `modpow` is the power modulo the modulus, for every modulus but 0 (43_external_primitives.md R170). -/
def Obligations.ModpowIsThePower : Prop := ∀ b e n : Nat, 1 ≤ n → modpow b e n = b ^ e % n

/-- `utf8_decode` (43_external_primitives.md R174) gives a text exactly on well-formed bytes: the text's characters are Unicode
scalar values and the bytes are their UTF-8 forms in order. So ASCII decodes to itself, and no value comes of bytes with an
ill-formed shape anywhere in them: the two the spec lists by example; an overlong form, a surrogate, a value above U+10FFFF or
a character cut off (R174 names these); a lead byte before a byte that continues nothing, and a continuation byte where a lead
is due. Which bytes are well formed is PRESUMED (`utf8Form`, log 8). -/
def Obligations.Utf8AcceptsExactlyWellFormed : Prop :=
  (∀ (b : Bytes) (t : Text), utf8Decode b = some t ↔ (∀ c ∈ t, isScalar c) ∧ b = t.flatMap utf8Form) ∧
  (∀ b : Bytes, (∀ x ∈ b, x.toNat < 0x80) → utf8Decode b = some (b.map BitVec.toNat)) ∧
  (∀ a b : Bytes, utf8Decode (a ++ 0xFF#8 :: b) = none ∧ utf8Decode (a ++ 0xC3#8 :: 0x28#8 :: b) = none) ∧
  (∀ (a b : Bytes) (x : Byte), x = 0xC0#8 ∨ x = 0xC1#8 ∨ 0xF5 ≤ x.toNat → utf8Decode (a ++ x :: b) = none) ∧
  (∀ (a b : Bytes) (y : Byte), y.toNat < 0xA0 → utf8Decode (a ++ 0xE0#8 :: y :: b) = none) ∧
  (∀ (a b : Bytes) (y : Byte), y.toNat < 0x90 → utf8Decode (a ++ 0xF0#8 :: y :: b) = none) ∧
  (∀ (a b : Bytes) (y : Byte), 0xA0 ≤ y.toNat → utf8Decode (a ++ 0xED#8 :: y :: b) = none) ∧
  (∀ (a b : Bytes) (y : Byte), 0x90 ≤ y.toNat → utf8Decode (a ++ 0xF4#8 :: y :: b) = none) ∧
  (∀ (a b : Bytes) (x y : Byte), 0xC2 ≤ x.toNat → y.toNat < 0x80 ∨ 0xC0 ≤ y.toNat → utf8Decode (a ++ x :: y :: b) = none) ∧
  (∀ (a b : Bytes) (x : Byte), utf8Decode a ≠ none → 0x80 ≤ x.toNat → x.toNat ≤ 0xBF → utf8Decode (a ++ x :: b) = none) ∧
  (∀ (a b : Bytes) (x : Byte), (0xC2 ≤ x.toNat ∧ b.length < 1) ∨ (0xE0 ≤ x.toNat ∧ b.length < 2) ∨
    (0xF0 ≤ x.toNat ∧ b.length < 3) → utf8Decode (a ++ x :: b) = none)
end

