-- ==== Sys2Proof/Laws/Memory.lean ====
section
/-! SUPPORT. The byte buffers: what is stored is what is read, and every operation keeps the canonical form. -/

namespace Sys2Proof.Machine

open Sys2Proof

@[simp] theorem Memory.read_nil (a : Nat) : Memory.read [] a = 0 := rfl

@[simp] theorem Memory.wf_nil : Memory.wf [] = true := rfl

@[simp] theorem Memory.slice_length (m : Memory) (n : Nat) : (Memory.slice m n).length = n := by
  simp [Memory.slice]

theorem Memory.layout_zero (a : Nat) (bs : Bytes) : Memory.layout a (0 :: bs) = Memory.layout (a + 1) bs := rfl

theorem Memory.layout_nonzero (a : Nat) {b : Byte} (bs : Bytes) (h : b ≠ 0) :
    Memory.layout a (b :: bs) = (a, b) :: Memory.layout (a + 1) bs := if_neg h

theorem Memory.read_here (a : Nat) (b : Byte) (m : Memory) : Memory.read ((a, b) :: m) a = b := by
  simp [Memory.read]

theorem Memory.read_elsewhere {a c : Nat} (b : Byte) (m : Memory) (h : a ≠ c) :
    Memory.read ((c, b) :: m) a = Memory.read m a := by
  have hne : (a == c) = false := by simpa using h
  simp [Memory.read, List.lookup, hne]

/-- Below the first address laid out nothing is listed. -/
theorem Memory.read_layout_below (b : Bytes) : ∀ lo a, a < lo → Memory.read (Memory.layout lo b) a = 0 := by
  induction b with
  | nil => intro lo a _; rfl
  | cons x xs ih =>
    intro lo a h
    by_cases hx : x = 0
    · rw [hx, Memory.layout_zero]; exact ih (lo + 1) a (by omega)
    · rw [Memory.layout_nonzero lo xs hx, Memory.read_elsewhere x _ (by omega)]; exact ih (lo + 1) a (by omega)

/-- Reading the layout of `b` from `lo` gives the bytes of `b`, and 0 past its end. -/
theorem Memory.read_layout (b : Bytes) : ∀ lo i, Memory.read (Memory.layout lo b) (lo + i) = b.getD i 0 := by
  induction b with
  | nil => intro lo i; rfl
  | cons x xs ih =>
    intro lo i
    cases i with
    | zero =>
      by_cases hx : x = 0
      · rw [hx, Memory.layout_zero]; exact Memory.read_layout_below xs (lo + 1) lo (by omega)
      · rw [Memory.layout_nonzero lo xs hx]; exact Memory.read_here lo x _
    | succ i =>
      have hstep : lo + (i + 1) = lo + 1 + i := by omega
      have htail : (x :: xs).getD (i + 1) 0 = xs.getD i 0 := rfl
      rw [hstep, htail, ← ih (lo + 1) i]
      by_cases hx : x = 0
      · rw [hx, Memory.layout_zero]
      · rw [Memory.layout_nonzero lo xs hx, Memory.read_elsewhere x _ (by omega)]

/-- A whole-buffer write is read back: byte `a` of `b`, and 0 past its end. -/
theorem Memory.read_ofBytes (b : Bytes) (a : Nat) : Memory.read (Memory.ofBytes b) a = b.getD a 0 := by
  simpa [Memory.ofBytes] using Memory.read_layout b 0 a

/-- The bytes written come back whole. -/
theorem Memory.slice_ofBytes (b : Bytes) : Memory.slice (Memory.ofBytes b) b.length = b := by
  apply List.ext_getElem
  · simp
  · intro i h _
    simp only [Memory.slice, List.getElem_map, List.getElem_range, Memory.read_ofBytes]
    exact (List.getElem_eq_getD 0).symm

/-- A layout that ends within the capacity is canonical. -/
theorem Memory.wf_layout (b : Bytes) : ∀ lo start, start ≤ lo → lo + b.length ≤ Config.frameMax →
    Memory.wfFrom start (Memory.layout lo b) = true := by
  induction b with
  | nil => intro lo start _ _; rfl
  | cons x xs ih =>
    intro lo start hs hl
    simp only [List.length_cons] at hl
    by_cases hx : x = 0
    · simpa [Memory.layout, hx] using ih (lo + 1) start (by omega) (by omega)
    · simp only [Memory.layout, hx, if_false, Memory.wfFrom, Bool.and_eq_true, decide_eq_true_eq]
      exact ⟨⟨⟨hs, by omega⟩, hx⟩, ih (lo + 1) (lo + 1) le_rfl (by omega)⟩

/-- A whole-buffer write of bytes that fit keeps the canonical form. -/
theorem Memory.wf_ofBytes (b : Bytes) (h : b.length ≤ Config.frameMax) : Memory.wf (Memory.ofBytes b) = true :=
  Memory.wf_layout b 0 0 le_rfl (by omega)

/-- The buffers of the reset state are canonical. -/
theorem reset_buffers_wf : Memory.wf State.reset.rxbuf = true ∧ Memory.wf State.reset.txbuf = true := ⟨rfl, rfl⟩

end Sys2Proof.Machine
end

