-- ==== Sys2Proof/Laws/State.lean ====
section
/-! SUPPORT. What each named update of the state leaves in each field: one lemma per field per update, so that no later proof
unfolds a record update. -/

namespace Sys2Proof.Machine

open Sys2Proof

variable (s : State)

/-! ### configure -/

@[simp] theorem State.configure_cfg (c : Cfg) : (s.configure c).cfg = c := rfl
@[simp] theorem State.configure_key (c : Cfg) : (s.configure c).key = s.key := rfl
@[simp] theorem State.configure_rk (c : Cfg) : (s.configure c).rk = List.replicate Config.numRounds 0 := rfl
@[simp] theorem State.configure_kvalid (c : Cfg) : (s.configure c).kvalid = false := rfl
@[simp] theorem State.configure_din (c : Cfg) : (s.configure c).din = s.din := rfl
@[simp] theorem State.configure_dout (c : Cfg) : (s.configure c).dout = s.dout := rfl
@[simp] theorem State.configure_nonce (c : Cfg) : (s.configure c).nonce = s.nonce := rfl
@[simp] theorem State.configure_msg (c : Cfg) : (s.configure c).msg = s.msg := rfl
@[simp] theorem State.configure_mlen (c : Cfg) : (s.configure c).mlen = s.mlen := rfl
@[simp] theorem State.configure_cblk (c : Cfg) : (s.configure c).cblk = s.cblk := rfl
@[simp] theorem State.configure_cbn (c : Cfg) : (s.configure c).cbn = s.cbn := rfl
@[simp] theorem State.configure_hstate (c : Cfg) : (s.configure c).hstate = s.hstate := rfl
@[simp] theorem State.configure_herr (c : Cfg) : (s.configure c).herr = s.herr := rfl
@[simp] theorem State.configure_pubE (c : Cfg) : (s.configure c).pubE = s.pubE := rfl
@[simp] theorem State.configure_pubN (c : Cfg) : (s.configure c).pubN = s.pubN := rfl
@[simp] theorem State.configure_privD (c : Cfg) : (s.configure c).privD = s.privD := rfl
@[simp] theorem State.configure_privN (c : Cfg) : (s.configure c).privN = s.privN := rfl
@[simp] theorem State.configure_rxbuf (c : Cfg) : (s.configure c).rxbuf = s.rxbuf := rfl
@[simp] theorem State.configure_rxlen (c : Cfg) : (s.configure c).rxlen = s.rxlen := rfl
@[simp] theorem State.configure_rqSk (c : Cfg) : (s.configure c).rqSk = s.rqSk := rfl
@[simp] theorem State.configure_rqPl (c : Cfg) : (s.configure c).rqPl = s.rqPl := rfl
@[simp] theorem State.configure_rqPlbits (c : Cfg) : (s.configure c).rqPlbits = s.rqPlbits := rfl
@[simp] theorem State.configure_kdKey (c : Cfg) : (s.configure c).kdKey = s.kdKey := rfl
@[simp] theorem State.configure_kdTod (c : Cfg) : (s.configure c).kdTod = s.kdTod := rfl
@[simp] theorem State.configure_kdCanon (c : Cfg) : (s.configure c).kdCanon = s.kdCanon := rfl
@[simp] theorem State.configure_adCanon (c : Cfg) : (s.configure c).adCanon = s.adCanon := rfl
@[simp] theorem State.configure_adHash (c : Cfg) : (s.configure c).adHash = s.adHash := rfl
@[simp] theorem State.configure_sig (c : Cfg) : (s.configure c).sig = s.sig := rfl
@[simp] theorem State.configure_sigok (c : Cfg) : (s.configure c).sigok = s.sigok := rfl
@[simp] theorem State.configure_hashok (c : Cfg) : (s.configure c).hashok = s.hashok := rfl
@[simp] theorem State.configure_newkey (c : Cfg) : (s.configure c).newkey = s.newkey := rfl
@[simp] theorem State.configure_txbuf (c : Cfg) : (s.configure c).txbuf = s.txbuf := rfl
@[simp] theorem State.configure_txlen (c : Cfg) : (s.configure c).txlen = s.txlen := rfl
@[simp] theorem State.configure_txvalid (c : Cfg) : (s.configure c).txvalid = s.txvalid := rfl
@[simp] theorem State.configure_res (c : Cfg) : (s.configure c).res = s.res := rfl
@[simp] theorem State.configure_ill (c : Cfg) : (s.configure c).ill = s.ill := rfl
@[simp] theorem State.configure_todLast (c : Cfg) : (s.configure c).todLast = s.todLast := rfl
@[simp] theorem State.configure_env (c : Cfg) : (s.configure c).env = s.env := rfl

/-! ### keyExp -/

@[simp] theorem State.keyExp_cfg : s.keyExp.cfg = s.cfg := rfl
@[simp] theorem State.keyExp_key : s.keyExp.key = s.key := rfl
@[simp] theorem State.keyExp_rk : s.keyExp.rk = scheduleCells s.env.z s.cfg.dim s.cfg.m s.key.toNat := rfl
@[simp] theorem State.keyExp_kvalid : s.keyExp.kvalid = true := rfl
@[simp] theorem State.keyExp_din : s.keyExp.din = s.din := rfl
@[simp] theorem State.keyExp_dout : s.keyExp.dout = s.dout := rfl
@[simp] theorem State.keyExp_nonce : s.keyExp.nonce = s.nonce := rfl
@[simp] theorem State.keyExp_msg : s.keyExp.msg = s.msg := rfl
@[simp] theorem State.keyExp_mlen : s.keyExp.mlen = s.mlen := rfl
@[simp] theorem State.keyExp_cblk : s.keyExp.cblk = s.cblk := rfl
@[simp] theorem State.keyExp_cbn : s.keyExp.cbn = s.cbn := rfl
@[simp] theorem State.keyExp_hstate : s.keyExp.hstate = s.hstate := rfl
@[simp] theorem State.keyExp_herr : s.keyExp.herr = s.herr := rfl
@[simp] theorem State.keyExp_pubE : s.keyExp.pubE = s.pubE := rfl
@[simp] theorem State.keyExp_pubN : s.keyExp.pubN = s.pubN := rfl
@[simp] theorem State.keyExp_privD : s.keyExp.privD = s.privD := rfl
@[simp] theorem State.keyExp_privN : s.keyExp.privN = s.privN := rfl
@[simp] theorem State.keyExp_rxbuf : s.keyExp.rxbuf = s.rxbuf := rfl
@[simp] theorem State.keyExp_rxlen : s.keyExp.rxlen = s.rxlen := rfl
@[simp] theorem State.keyExp_rqSk : s.keyExp.rqSk = s.rqSk := rfl
@[simp] theorem State.keyExp_rqPl : s.keyExp.rqPl = s.rqPl := rfl
@[simp] theorem State.keyExp_rqPlbits : s.keyExp.rqPlbits = s.rqPlbits := rfl
@[simp] theorem State.keyExp_kdKey : s.keyExp.kdKey = s.kdKey := rfl
@[simp] theorem State.keyExp_kdTod : s.keyExp.kdTod = s.kdTod := rfl
@[simp] theorem State.keyExp_kdCanon : s.keyExp.kdCanon = s.kdCanon := rfl
@[simp] theorem State.keyExp_adCanon : s.keyExp.adCanon = s.adCanon := rfl
@[simp] theorem State.keyExp_adHash : s.keyExp.adHash = s.adHash := rfl
@[simp] theorem State.keyExp_sig : s.keyExp.sig = s.sig := rfl
@[simp] theorem State.keyExp_sigok : s.keyExp.sigok = s.sigok := rfl
@[simp] theorem State.keyExp_hashok : s.keyExp.hashok = s.hashok := rfl
@[simp] theorem State.keyExp_newkey : s.keyExp.newkey = s.newkey := rfl
@[simp] theorem State.keyExp_txbuf : s.keyExp.txbuf = s.txbuf := rfl
@[simp] theorem State.keyExp_txlen : s.keyExp.txlen = s.txlen := rfl
@[simp] theorem State.keyExp_txvalid : s.keyExp.txvalid = s.txvalid := rfl
@[simp] theorem State.keyExp_res : s.keyExp.res = s.res := rfl
@[simp] theorem State.keyExp_ill : s.keyExp.ill = s.ill := rfl
@[simp] theorem State.keyExp_todLast : s.keyExp.todLast = s.todLast := rfl
@[simp] theorem State.keyExp_env : s.keyExp.env = s.env := rfl

/-! ### todTaken -/

@[simp] theorem State.todTaken_cfg : s.todTaken.cfg = s.cfg := rfl
@[simp] theorem State.todTaken_key : s.todTaken.key = s.key := rfl
@[simp] theorem State.todTaken_rk : s.todTaken.rk = s.rk := rfl
@[simp] theorem State.todTaken_kvalid : s.todTaken.kvalid = s.kvalid := rfl
@[simp] theorem State.todTaken_din : s.todTaken.din = s.din := rfl
@[simp] theorem State.todTaken_dout : s.todTaken.dout = s.dout := rfl
@[simp] theorem State.todTaken_nonce : s.todTaken.nonce = s.nonce := rfl
@[simp] theorem State.todTaken_msg : s.todTaken.msg = s.msg := rfl
@[simp] theorem State.todTaken_mlen : s.todTaken.mlen = s.mlen := rfl
@[simp] theorem State.todTaken_cblk : s.todTaken.cblk = s.cblk := rfl
@[simp] theorem State.todTaken_cbn : s.todTaken.cbn = s.cbn := rfl
@[simp] theorem State.todTaken_hstate : s.todTaken.hstate = s.hstate := rfl
@[simp] theorem State.todTaken_herr : s.todTaken.herr = s.herr := rfl
@[simp] theorem State.todTaken_pubE : s.todTaken.pubE = s.pubE := rfl
@[simp] theorem State.todTaken_pubN : s.todTaken.pubN = s.pubN := rfl
@[simp] theorem State.todTaken_privD : s.todTaken.privD = s.privD := rfl
@[simp] theorem State.todTaken_privN : s.todTaken.privN = s.privN := rfl
@[simp] theorem State.todTaken_rxbuf : s.todTaken.rxbuf = s.rxbuf := rfl
@[simp] theorem State.todTaken_rxlen : s.todTaken.rxlen = s.rxlen := rfl
@[simp] theorem State.todTaken_rqSk : s.todTaken.rqSk = s.rqSk := rfl
@[simp] theorem State.todTaken_rqPl : s.todTaken.rqPl = s.rqPl := rfl
@[simp] theorem State.todTaken_rqPlbits : s.todTaken.rqPlbits = s.rqPlbits := rfl
@[simp] theorem State.todTaken_kdKey : s.todTaken.kdKey = s.kdKey := rfl
@[simp] theorem State.todTaken_kdTod : s.todTaken.kdTod = s.kdTod := rfl
@[simp] theorem State.todTaken_kdCanon : s.todTaken.kdCanon = s.kdCanon := rfl
@[simp] theorem State.todTaken_adCanon : s.todTaken.adCanon = s.adCanon := rfl
@[simp] theorem State.todTaken_adHash : s.todTaken.adHash = s.adHash := rfl
@[simp] theorem State.todTaken_sig : s.todTaken.sig = s.sig := rfl
@[simp] theorem State.todTaken_sigok : s.todTaken.sigok = s.sigok := rfl
@[simp] theorem State.todTaken_hashok : s.todTaken.hashok = s.hashok := rfl
@[simp] theorem State.todTaken_newkey : s.todTaken.newkey = s.newkey := rfl
@[simp] theorem State.todTaken_txbuf : s.todTaken.txbuf = s.txbuf := rfl
@[simp] theorem State.todTaken_txlen : s.todTaken.txlen = s.txlen := rfl
@[simp] theorem State.todTaken_txvalid : s.todTaken.txvalid = s.txvalid := rfl
@[simp] theorem State.todTaken_res : s.todTaken.res = s.res := rfl
@[simp] theorem State.todTaken_ill : s.todTaken.ill = s.ill := rfl
@[simp] theorem State.todTaken_todLast : s.todTaken.todLast = s.todLast := rfl
@[simp] theorem State.todTaken_env : s.todTaken.env = s.env.todTaken := rfl

/-! ### rngTaken -/

@[simp] theorem State.rngTaken_cfg : s.rngTaken.cfg = s.cfg := rfl
@[simp] theorem State.rngTaken_key : s.rngTaken.key = s.key := rfl
@[simp] theorem State.rngTaken_rk : s.rngTaken.rk = s.rk := rfl
@[simp] theorem State.rngTaken_kvalid : s.rngTaken.kvalid = s.kvalid := rfl
@[simp] theorem State.rngTaken_din : s.rngTaken.din = s.din := rfl
@[simp] theorem State.rngTaken_dout : s.rngTaken.dout = s.dout := rfl
@[simp] theorem State.rngTaken_nonce : s.rngTaken.nonce = s.nonce := rfl
@[simp] theorem State.rngTaken_msg : s.rngTaken.msg = s.msg := rfl
@[simp] theorem State.rngTaken_mlen : s.rngTaken.mlen = s.mlen := rfl
@[simp] theorem State.rngTaken_cblk : s.rngTaken.cblk = s.cblk := rfl
@[simp] theorem State.rngTaken_cbn : s.rngTaken.cbn = s.cbn := rfl
@[simp] theorem State.rngTaken_hstate : s.rngTaken.hstate = s.hstate := rfl
@[simp] theorem State.rngTaken_herr : s.rngTaken.herr = s.herr := rfl
@[simp] theorem State.rngTaken_pubE : s.rngTaken.pubE = s.pubE := rfl
@[simp] theorem State.rngTaken_pubN : s.rngTaken.pubN = s.pubN := rfl
@[simp] theorem State.rngTaken_privD : s.rngTaken.privD = s.privD := rfl
@[simp] theorem State.rngTaken_privN : s.rngTaken.privN = s.privN := rfl
@[simp] theorem State.rngTaken_rxbuf : s.rngTaken.rxbuf = s.rxbuf := rfl
@[simp] theorem State.rngTaken_rxlen : s.rngTaken.rxlen = s.rxlen := rfl
@[simp] theorem State.rngTaken_rqSk : s.rngTaken.rqSk = s.rqSk := rfl
@[simp] theorem State.rngTaken_rqPl : s.rngTaken.rqPl = s.rqPl := rfl
@[simp] theorem State.rngTaken_rqPlbits : s.rngTaken.rqPlbits = s.rqPlbits := rfl
@[simp] theorem State.rngTaken_kdKey : s.rngTaken.kdKey = s.kdKey := rfl
@[simp] theorem State.rngTaken_kdTod : s.rngTaken.kdTod = s.kdTod := rfl
@[simp] theorem State.rngTaken_kdCanon : s.rngTaken.kdCanon = s.kdCanon := rfl
@[simp] theorem State.rngTaken_adCanon : s.rngTaken.adCanon = s.adCanon := rfl
@[simp] theorem State.rngTaken_adHash : s.rngTaken.adHash = s.adHash := rfl
@[simp] theorem State.rngTaken_sig : s.rngTaken.sig = s.sig := rfl
@[simp] theorem State.rngTaken_sigok : s.rngTaken.sigok = s.sigok := rfl
@[simp] theorem State.rngTaken_hashok : s.rngTaken.hashok = s.hashok := rfl
@[simp] theorem State.rngTaken_newkey : s.rngTaken.newkey = s.newkey := rfl
@[simp] theorem State.rngTaken_txbuf : s.rngTaken.txbuf = s.txbuf := rfl
@[simp] theorem State.rngTaken_txlen : s.rngTaken.txlen = s.txlen := rfl
@[simp] theorem State.rngTaken_txvalid : s.rngTaken.txvalid = s.txvalid := rfl
@[simp] theorem State.rngTaken_res : s.rngTaken.res = s.res := rfl
@[simp] theorem State.rngTaken_ill : s.rngTaken.ill = s.ill := rfl
@[simp] theorem State.rngTaken_todLast : s.rngTaken.todLast = s.todLast := rfl
@[simp] theorem State.rngTaken_env : s.rngTaken.env = s.env.rngTaken := rfl

/-! ### discardSession -/

@[simp] theorem State.discardSession_cfg : s.discardSession.cfg = s.cfg := rfl
@[simp] theorem State.discardSession_key : s.discardSession.key = 0 := rfl
@[simp] theorem State.discardSession_rk : s.discardSession.rk = List.replicate Config.numRounds 0 := rfl
@[simp] theorem State.discardSession_kvalid : s.discardSession.kvalid = false := rfl
@[simp] theorem State.discardSession_din : s.discardSession.din = s.din := rfl
@[simp] theorem State.discardSession_dout : s.discardSession.dout = s.dout := rfl
@[simp] theorem State.discardSession_nonce : s.discardSession.nonce = 0 := rfl
@[simp] theorem State.discardSession_msg : s.discardSession.msg = s.msg := rfl
@[simp] theorem State.discardSession_mlen : s.discardSession.mlen = s.mlen := rfl
@[simp] theorem State.discardSession_cblk : s.discardSession.cblk = [] := rfl
@[simp] theorem State.discardSession_cbn : s.discardSession.cbn = 0 := rfl
@[simp] theorem State.discardSession_hstate : s.discardSession.hstate = s.hstate := rfl
@[simp] theorem State.discardSession_herr : s.discardSession.herr = s.herr := rfl
@[simp] theorem State.discardSession_pubE : s.discardSession.pubE = s.pubE := rfl
@[simp] theorem State.discardSession_pubN : s.discardSession.pubN = s.pubN := rfl
@[simp] theorem State.discardSession_privD : s.discardSession.privD = s.privD := rfl
@[simp] theorem State.discardSession_privN : s.discardSession.privN = s.privN := rfl
@[simp] theorem State.discardSession_rxbuf : s.discardSession.rxbuf = [] := rfl
@[simp] theorem State.discardSession_rxlen : s.discardSession.rxlen = 0 := rfl
@[simp] theorem State.discardSession_rqSk : s.discardSession.rqSk = 0 := rfl
@[simp] theorem State.discardSession_rqPl : s.discardSession.rqPl = 0 := rfl
@[simp] theorem State.discardSession_rqPlbits : s.discardSession.rqPlbits = 0 := rfl
@[simp] theorem State.discardSession_kdKey : s.discardSession.kdKey = 0 := rfl
@[simp] theorem State.discardSession_kdTod : s.discardSession.kdTod = 0 := rfl
@[simp] theorem State.discardSession_kdCanon : s.discardSession.kdCanon = [] := rfl
@[simp] theorem State.discardSession_adCanon : s.discardSession.adCanon = [] := rfl
@[simp] theorem State.discardSession_adHash : s.discardSession.adHash = 0 := rfl
@[simp] theorem State.discardSession_sig : s.discardSession.sig = 0 := rfl
@[simp] theorem State.discardSession_sigok : s.discardSession.sigok = s.sigok := rfl
@[simp] theorem State.discardSession_hashok : s.discardSession.hashok = s.hashok := rfl
@[simp] theorem State.discardSession_newkey : s.discardSession.newkey = s.newkey := rfl
@[simp] theorem State.discardSession_txbuf : s.discardSession.txbuf = s.txbuf := rfl
@[simp] theorem State.discardSession_txlen : s.discardSession.txlen = s.txlen := rfl
@[simp] theorem State.discardSession_txvalid : s.discardSession.txvalid = s.txvalid := rfl
@[simp] theorem State.discardSession_res : s.discardSession.res = s.res := rfl
@[simp] theorem State.discardSession_ill : s.discardSession.ill = s.ill := rfl
@[simp] theorem State.discardSession_todLast : s.discardSession.todLast = s.todLast := rfl
@[simp] theorem State.discardSession_env : s.discardSession.env = s.env := rfl

/-! ### discardOutputs -/

@[simp] theorem State.discardOutputs_cfg : s.discardOutputs.cfg = s.cfg := rfl
@[simp] theorem State.discardOutputs_key : s.discardOutputs.key = s.key := rfl
@[simp] theorem State.discardOutputs_rk : s.discardOutputs.rk = s.rk := rfl
@[simp] theorem State.discardOutputs_kvalid : s.discardOutputs.kvalid = s.kvalid := rfl
@[simp] theorem State.discardOutputs_din : s.discardOutputs.din = s.din := rfl
@[simp] theorem State.discardOutputs_dout : s.discardOutputs.dout = s.dout := rfl
@[simp] theorem State.discardOutputs_nonce : s.discardOutputs.nonce = s.nonce := rfl
@[simp] theorem State.discardOutputs_msg : s.discardOutputs.msg = 0 := rfl
@[simp] theorem State.discardOutputs_mlen : s.discardOutputs.mlen = 0 := rfl
@[simp] theorem State.discardOutputs_cblk : s.discardOutputs.cblk = s.cblk := rfl
@[simp] theorem State.discardOutputs_cbn : s.discardOutputs.cbn = s.cbn := rfl
@[simp] theorem State.discardOutputs_hstate : s.discardOutputs.hstate = s.hstate := rfl
@[simp] theorem State.discardOutputs_herr : s.discardOutputs.herr = s.herr := rfl
@[simp] theorem State.discardOutputs_pubE : s.discardOutputs.pubE = s.pubE := rfl
@[simp] theorem State.discardOutputs_pubN : s.discardOutputs.pubN = s.pubN := rfl
@[simp] theorem State.discardOutputs_privD : s.discardOutputs.privD = s.privD := rfl
@[simp] theorem State.discardOutputs_privN : s.discardOutputs.privN = s.privN := rfl
@[simp] theorem State.discardOutputs_rxbuf : s.discardOutputs.rxbuf = s.rxbuf := rfl
@[simp] theorem State.discardOutputs_rxlen : s.discardOutputs.rxlen = s.rxlen := rfl
@[simp] theorem State.discardOutputs_rqSk : s.discardOutputs.rqSk = s.rqSk := rfl
@[simp] theorem State.discardOutputs_rqPl : s.discardOutputs.rqPl = s.rqPl := rfl
@[simp] theorem State.discardOutputs_rqPlbits : s.discardOutputs.rqPlbits = s.rqPlbits := rfl
@[simp] theorem State.discardOutputs_kdKey : s.discardOutputs.kdKey = s.kdKey := rfl
@[simp] theorem State.discardOutputs_kdTod : s.discardOutputs.kdTod = s.kdTod := rfl
@[simp] theorem State.discardOutputs_kdCanon : s.discardOutputs.kdCanon = s.kdCanon := rfl
@[simp] theorem State.discardOutputs_adCanon : s.discardOutputs.adCanon = s.adCanon := rfl
@[simp] theorem State.discardOutputs_adHash : s.discardOutputs.adHash = s.adHash := rfl
@[simp] theorem State.discardOutputs_sig : s.discardOutputs.sig = s.sig := rfl
@[simp] theorem State.discardOutputs_sigok : s.discardOutputs.sigok = s.sigok := rfl
@[simp] theorem State.discardOutputs_hashok : s.discardOutputs.hashok = s.hashok := rfl
@[simp] theorem State.discardOutputs_newkey : s.discardOutputs.newkey = 0 := rfl
@[simp] theorem State.discardOutputs_txbuf : s.discardOutputs.txbuf = [] := rfl
@[simp] theorem State.discardOutputs_txlen : s.discardOutputs.txlen = 0 := rfl
@[simp] theorem State.discardOutputs_txvalid : s.discardOutputs.txvalid = false := rfl
@[simp] theorem State.discardOutputs_res : s.discardOutputs.res = s.res := rfl
@[simp] theorem State.discardOutputs_ill : s.discardOutputs.ill = s.ill := rfl
@[simp] theorem State.discardOutputs_todLast : s.discardOutputs.todLast = s.todLast := rfl
@[simp] theorem State.discardOutputs_env : s.discardOutputs.env = s.env := rfl

/-! ### discardFull -/

@[simp] theorem State.discardFull_cfg : s.discardFull.cfg = s.cfg := rfl
@[simp] theorem State.discardFull_key : s.discardFull.key = 0 := rfl
@[simp] theorem State.discardFull_rk : s.discardFull.rk = List.replicate Config.numRounds 0 := rfl
@[simp] theorem State.discardFull_kvalid : s.discardFull.kvalid = false := rfl
@[simp] theorem State.discardFull_din : s.discardFull.din = s.din := rfl
@[simp] theorem State.discardFull_dout : s.discardFull.dout = s.dout := rfl
@[simp] theorem State.discardFull_nonce : s.discardFull.nonce = 0 := rfl
@[simp] theorem State.discardFull_msg : s.discardFull.msg = 0 := rfl
@[simp] theorem State.discardFull_mlen : s.discardFull.mlen = 0 := rfl
@[simp] theorem State.discardFull_cblk : s.discardFull.cblk = [] := rfl
@[simp] theorem State.discardFull_cbn : s.discardFull.cbn = 0 := rfl
@[simp] theorem State.discardFull_hstate : s.discardFull.hstate = s.hstate := rfl
@[simp] theorem State.discardFull_herr : s.discardFull.herr = s.herr := rfl
@[simp] theorem State.discardFull_pubE : s.discardFull.pubE = s.pubE := rfl
@[simp] theorem State.discardFull_pubN : s.discardFull.pubN = s.pubN := rfl
@[simp] theorem State.discardFull_privD : s.discardFull.privD = s.privD := rfl
@[simp] theorem State.discardFull_privN : s.discardFull.privN = s.privN := rfl
@[simp] theorem State.discardFull_rxbuf : s.discardFull.rxbuf = [] := rfl
@[simp] theorem State.discardFull_rxlen : s.discardFull.rxlen = 0 := rfl
@[simp] theorem State.discardFull_rqSk : s.discardFull.rqSk = 0 := rfl
@[simp] theorem State.discardFull_rqPl : s.discardFull.rqPl = 0 := rfl
@[simp] theorem State.discardFull_rqPlbits : s.discardFull.rqPlbits = 0 := rfl
@[simp] theorem State.discardFull_kdKey : s.discardFull.kdKey = 0 := rfl
@[simp] theorem State.discardFull_kdTod : s.discardFull.kdTod = 0 := rfl
@[simp] theorem State.discardFull_kdCanon : s.discardFull.kdCanon = [] := rfl
@[simp] theorem State.discardFull_adCanon : s.discardFull.adCanon = [] := rfl
@[simp] theorem State.discardFull_adHash : s.discardFull.adHash = 0 := rfl
@[simp] theorem State.discardFull_sig : s.discardFull.sig = 0 := rfl
@[simp] theorem State.discardFull_sigok : s.discardFull.sigok = s.sigok := rfl
@[simp] theorem State.discardFull_hashok : s.discardFull.hashok = s.hashok := rfl
@[simp] theorem State.discardFull_newkey : s.discardFull.newkey = 0 := rfl
@[simp] theorem State.discardFull_txbuf : s.discardFull.txbuf = [] := rfl
@[simp] theorem State.discardFull_txlen : s.discardFull.txlen = 0 := rfl
@[simp] theorem State.discardFull_txvalid : s.discardFull.txvalid = false := rfl
@[simp] theorem State.discardFull_res : s.discardFull.res = s.res := rfl
@[simp] theorem State.discardFull_ill : s.discardFull.ill = s.ill := rfl
@[simp] theorem State.discardFull_todLast : s.discardFull.todLast = s.todLast := rfl
@[simp] theorem State.discardFull_env : s.discardFull.env = s.env := rfl

/-! ### commandError -/

@[simp] theorem State.commandError_cfg (e : WtError) : (s.takeError .command e).cfg = s.cfg := rfl
@[simp] theorem State.commandError_key (e : WtError) : (s.takeError .command e).key = s.key := rfl
@[simp] theorem State.commandError_rk (e : WtError) : (s.takeError .command e).rk = s.rk := rfl
@[simp] theorem State.commandError_kvalid (e : WtError) : (s.takeError .command e).kvalid = s.kvalid := rfl
@[simp] theorem State.commandError_din (e : WtError) : (s.takeError .command e).din = s.din := rfl
@[simp] theorem State.commandError_dout (e : WtError) : (s.takeError .command e).dout = s.dout := rfl
@[simp] theorem State.commandError_nonce (e : WtError) : (s.takeError .command e).nonce = s.nonce := rfl
@[simp] theorem State.commandError_msg (e : WtError) : (s.takeError .command e).msg = s.msg := rfl
@[simp] theorem State.commandError_mlen (e : WtError) : (s.takeError .command e).mlen = s.mlen := rfl
@[simp] theorem State.commandError_cblk (e : WtError) : (s.takeError .command e).cblk = s.cblk := rfl
@[simp] theorem State.commandError_cbn (e : WtError) : (s.takeError .command e).cbn = s.cbn := rfl
@[simp] theorem State.commandError_hstate (e : WtError) : (s.takeError .command e).hstate = s.hstate := rfl
@[simp] theorem State.commandError_herr (e : WtError) : (s.takeError .command e).herr = s.herr := rfl
@[simp] theorem State.commandError_pubE (e : WtError) : (s.takeError .command e).pubE = s.pubE := rfl
@[simp] theorem State.commandError_pubN (e : WtError) : (s.takeError .command e).pubN = s.pubN := rfl
@[simp] theorem State.commandError_privD (e : WtError) : (s.takeError .command e).privD = s.privD := rfl
@[simp] theorem State.commandError_privN (e : WtError) : (s.takeError .command e).privN = s.privN := rfl
@[simp] theorem State.commandError_rxbuf (e : WtError) : (s.takeError .command e).rxbuf = s.rxbuf := rfl
@[simp] theorem State.commandError_rxlen (e : WtError) : (s.takeError .command e).rxlen = s.rxlen := rfl
@[simp] theorem State.commandError_rqSk (e : WtError) : (s.takeError .command e).rqSk = s.rqSk := rfl
@[simp] theorem State.commandError_rqPl (e : WtError) : (s.takeError .command e).rqPl = s.rqPl := rfl
@[simp] theorem State.commandError_rqPlbits (e : WtError) : (s.takeError .command e).rqPlbits = s.rqPlbits := rfl
@[simp] theorem State.commandError_kdKey (e : WtError) : (s.takeError .command e).kdKey = s.kdKey := rfl
@[simp] theorem State.commandError_kdTod (e : WtError) : (s.takeError .command e).kdTod = s.kdTod := rfl
@[simp] theorem State.commandError_kdCanon (e : WtError) : (s.takeError .command e).kdCanon = s.kdCanon := rfl
@[simp] theorem State.commandError_adCanon (e : WtError) : (s.takeError .command e).adCanon = s.adCanon := rfl
@[simp] theorem State.commandError_adHash (e : WtError) : (s.takeError .command e).adHash = s.adHash := rfl
@[simp] theorem State.commandError_sig (e : WtError) : (s.takeError .command e).sig = s.sig := rfl
@[simp] theorem State.commandError_sigok (e : WtError) : (s.takeError .command e).sigok = s.sigok := rfl
@[simp] theorem State.commandError_hashok (e : WtError) : (s.takeError .command e).hashok = s.hashok := rfl
@[simp] theorem State.commandError_newkey (e : WtError) : (s.takeError .command e).newkey = s.newkey := rfl
@[simp] theorem State.commandError_txbuf (e : WtError) : (s.takeError .command e).txbuf = s.txbuf := rfl
@[simp] theorem State.commandError_txlen (e : WtError) : (s.takeError .command e).txlen = s.txlen := rfl
@[simp] theorem State.commandError_txvalid (e : WtError) : (s.takeError .command e).txvalid = s.txvalid := rfl
@[simp] theorem State.commandError_res (e : WtError) : (s.takeError .command e).res = .error e := rfl
@[simp] theorem State.commandError_ill (e : WtError) : (s.takeError .command e).ill = s.ill := rfl
@[simp] theorem State.commandError_todLast (e : WtError) : (s.takeError .command e).todLast = s.todLast := rfl
@[simp] theorem State.commandError_env (e : WtError) : (s.takeError .command e).env = s.env := rfl

/-! ### stepError -/

@[simp] theorem State.stepError_cfg (e : WtError) : (s.takeError .sequencer e).cfg = s.cfg := rfl
@[simp] theorem State.stepError_key (e : WtError) : (s.takeError .sequencer e).key = 0 := rfl
@[simp] theorem State.stepError_rk (e : WtError) : (s.takeError .sequencer e).rk = List.replicate Config.numRounds 0 := rfl
@[simp] theorem State.stepError_kvalid (e : WtError) : (s.takeError .sequencer e).kvalid = false := rfl
@[simp] theorem State.stepError_din (e : WtError) : (s.takeError .sequencer e).din = s.din := rfl
@[simp] theorem State.stepError_dout (e : WtError) : (s.takeError .sequencer e).dout = s.dout := rfl
@[simp] theorem State.stepError_nonce (e : WtError) : (s.takeError .sequencer e).nonce = 0 := rfl
@[simp] theorem State.stepError_msg (e : WtError) : (s.takeError .sequencer e).msg = 0 := rfl
@[simp] theorem State.stepError_mlen (e : WtError) : (s.takeError .sequencer e).mlen = 0 := rfl
@[simp] theorem State.stepError_cblk (e : WtError) : (s.takeError .sequencer e).cblk = [] := rfl
@[simp] theorem State.stepError_cbn (e : WtError) : (s.takeError .sequencer e).cbn = 0 := rfl
@[simp] theorem State.stepError_hstate (e : WtError) : (s.takeError .sequencer e).hstate = .closed := rfl
@[simp] theorem State.stepError_herr (e : WtError) : (s.takeError .sequencer e).herr = some e := rfl
@[simp] theorem State.stepError_pubE (e : WtError) : (s.takeError .sequencer e).pubE = s.pubE := rfl
@[simp] theorem State.stepError_pubN (e : WtError) : (s.takeError .sequencer e).pubN = s.pubN := rfl
@[simp] theorem State.stepError_privD (e : WtError) : (s.takeError .sequencer e).privD = s.privD := rfl
@[simp] theorem State.stepError_privN (e : WtError) : (s.takeError .sequencer e).privN = s.privN := rfl
@[simp] theorem State.stepError_rxbuf (e : WtError) : (s.takeError .sequencer e).rxbuf = [] := rfl
@[simp] theorem State.stepError_rxlen (e : WtError) : (s.takeError .sequencer e).rxlen = 0 := rfl
@[simp] theorem State.stepError_rqSk (e : WtError) : (s.takeError .sequencer e).rqSk = 0 := rfl
@[simp] theorem State.stepError_rqPl (e : WtError) : (s.takeError .sequencer e).rqPl = 0 := rfl
@[simp] theorem State.stepError_rqPlbits (e : WtError) : (s.takeError .sequencer e).rqPlbits = 0 := rfl
@[simp] theorem State.stepError_kdKey (e : WtError) : (s.takeError .sequencer e).kdKey = 0 := rfl
@[simp] theorem State.stepError_kdTod (e : WtError) : (s.takeError .sequencer e).kdTod = 0 := rfl
@[simp] theorem State.stepError_kdCanon (e : WtError) : (s.takeError .sequencer e).kdCanon = [] := rfl
@[simp] theorem State.stepError_adCanon (e : WtError) : (s.takeError .sequencer e).adCanon = [] := rfl
@[simp] theorem State.stepError_adHash (e : WtError) : (s.takeError .sequencer e).adHash = 0 := rfl
@[simp] theorem State.stepError_sig (e : WtError) : (s.takeError .sequencer e).sig = 0 := rfl
@[simp] theorem State.stepError_sigok (e : WtError) : (s.takeError .sequencer e).sigok = s.sigok := rfl
@[simp] theorem State.stepError_hashok (e : WtError) : (s.takeError .sequencer e).hashok = s.hashok := rfl
@[simp] theorem State.stepError_newkey (e : WtError) : (s.takeError .sequencer e).newkey = 0 := rfl
@[simp] theorem State.stepError_txbuf (e : WtError) : (s.takeError .sequencer e).txbuf = [] := rfl
@[simp] theorem State.stepError_txlen (e : WtError) : (s.takeError .sequencer e).txlen = 0 := rfl
@[simp] theorem State.stepError_txvalid (e : WtError) : (s.takeError .sequencer e).txvalid = false := rfl
@[simp] theorem State.stepError_res (e : WtError) : (s.takeError .sequencer e).res = s.res := rfl
@[simp] theorem State.stepError_ill (e : WtError) : (s.takeError .sequencer e).ill = s.ill := rfl
@[simp] theorem State.stepError_todLast (e : WtError) : (s.takeError .sequencer e).todLast = s.todLast := rfl
@[simp] theorem State.stepError_env (e : WtError) : (s.takeError .sequencer e).env = s.env := rfl

/-! ### reject -/

@[simp] theorem State.reject_cfg : s.reject.cfg = s.cfg := rfl
@[simp] theorem State.reject_key : s.reject.key = s.key := rfl
@[simp] theorem State.reject_rk : s.reject.rk = s.rk := rfl
@[simp] theorem State.reject_kvalid : s.reject.kvalid = s.kvalid := rfl
@[simp] theorem State.reject_din : s.reject.din = s.din := rfl
@[simp] theorem State.reject_dout : s.reject.dout = s.dout := rfl
@[simp] theorem State.reject_nonce : s.reject.nonce = s.nonce := rfl
@[simp] theorem State.reject_msg : s.reject.msg = s.msg := rfl
@[simp] theorem State.reject_mlen : s.reject.mlen = s.mlen := rfl
@[simp] theorem State.reject_cblk : s.reject.cblk = s.cblk := rfl
@[simp] theorem State.reject_cbn : s.reject.cbn = s.cbn := rfl
@[simp] theorem State.reject_hstate : s.reject.hstate = s.hstate := rfl
@[simp] theorem State.reject_herr : s.reject.herr = s.herr := rfl
@[simp] theorem State.reject_pubE : s.reject.pubE = s.pubE := rfl
@[simp] theorem State.reject_pubN : s.reject.pubN = s.pubN := rfl
@[simp] theorem State.reject_privD : s.reject.privD = s.privD := rfl
@[simp] theorem State.reject_privN : s.reject.privN = s.privN := rfl
@[simp] theorem State.reject_rxbuf : s.reject.rxbuf = s.rxbuf := rfl
@[simp] theorem State.reject_rxlen : s.reject.rxlen = s.rxlen := rfl
@[simp] theorem State.reject_rqSk : s.reject.rqSk = s.rqSk := rfl
@[simp] theorem State.reject_rqPl : s.reject.rqPl = s.rqPl := rfl
@[simp] theorem State.reject_rqPlbits : s.reject.rqPlbits = s.rqPlbits := rfl
@[simp] theorem State.reject_kdKey : s.reject.kdKey = s.kdKey := rfl
@[simp] theorem State.reject_kdTod : s.reject.kdTod = s.kdTod := rfl
@[simp] theorem State.reject_kdCanon : s.reject.kdCanon = s.kdCanon := rfl
@[simp] theorem State.reject_adCanon : s.reject.adCanon = s.adCanon := rfl
@[simp] theorem State.reject_adHash : s.reject.adHash = s.adHash := rfl
@[simp] theorem State.reject_sig : s.reject.sig = s.sig := rfl
@[simp] theorem State.reject_sigok : s.reject.sigok = s.sigok := rfl
@[simp] theorem State.reject_hashok : s.reject.hashok = s.hashok := rfl
@[simp] theorem State.reject_newkey : s.reject.newkey = s.newkey := rfl
@[simp] theorem State.reject_txbuf : s.reject.txbuf = s.txbuf := rfl
@[simp] theorem State.reject_txlen : s.reject.txlen = s.txlen := rfl
@[simp] theorem State.reject_txvalid : s.reject.txvalid = s.txvalid := rfl
@[simp] theorem State.reject_res : s.reject.res = .rejected := rfl
@[simp] theorem State.reject_ill : s.reject.ill = true := rfl
@[simp] theorem State.reject_todLast : s.reject.todLast = s.todLast := rfl
@[simp] theorem State.reject_env : s.reject.env = s.env := rfl

/-! ### dropWrite -/

@[simp] theorem State.dropWrite_cfg : s.dropWrite.cfg = s.cfg := rfl
@[simp] theorem State.dropWrite_key : s.dropWrite.key = s.key := rfl
@[simp] theorem State.dropWrite_rk : s.dropWrite.rk = s.rk := rfl
@[simp] theorem State.dropWrite_kvalid : s.dropWrite.kvalid = s.kvalid := rfl
@[simp] theorem State.dropWrite_din : s.dropWrite.din = s.din := rfl
@[simp] theorem State.dropWrite_dout : s.dropWrite.dout = s.dout := rfl
@[simp] theorem State.dropWrite_nonce : s.dropWrite.nonce = s.nonce := rfl
@[simp] theorem State.dropWrite_msg : s.dropWrite.msg = s.msg := rfl
@[simp] theorem State.dropWrite_mlen : s.dropWrite.mlen = s.mlen := rfl
@[simp] theorem State.dropWrite_cblk : s.dropWrite.cblk = s.cblk := rfl
@[simp] theorem State.dropWrite_cbn : s.dropWrite.cbn = s.cbn := rfl
@[simp] theorem State.dropWrite_hstate : s.dropWrite.hstate = s.hstate := rfl
@[simp] theorem State.dropWrite_herr : s.dropWrite.herr = s.herr := rfl
@[simp] theorem State.dropWrite_pubE : s.dropWrite.pubE = s.pubE := rfl
@[simp] theorem State.dropWrite_pubN : s.dropWrite.pubN = s.pubN := rfl
@[simp] theorem State.dropWrite_privD : s.dropWrite.privD = s.privD := rfl
@[simp] theorem State.dropWrite_privN : s.dropWrite.privN = s.privN := rfl
@[simp] theorem State.dropWrite_rxbuf : s.dropWrite.rxbuf = s.rxbuf := rfl
@[simp] theorem State.dropWrite_rxlen : s.dropWrite.rxlen = s.rxlen := rfl
@[simp] theorem State.dropWrite_rqSk : s.dropWrite.rqSk = s.rqSk := rfl
@[simp] theorem State.dropWrite_rqPl : s.dropWrite.rqPl = s.rqPl := rfl
@[simp] theorem State.dropWrite_rqPlbits : s.dropWrite.rqPlbits = s.rqPlbits := rfl
@[simp] theorem State.dropWrite_kdKey : s.dropWrite.kdKey = s.kdKey := rfl
@[simp] theorem State.dropWrite_kdTod : s.dropWrite.kdTod = s.kdTod := rfl
@[simp] theorem State.dropWrite_kdCanon : s.dropWrite.kdCanon = s.kdCanon := rfl
@[simp] theorem State.dropWrite_adCanon : s.dropWrite.adCanon = s.adCanon := rfl
@[simp] theorem State.dropWrite_adHash : s.dropWrite.adHash = s.adHash := rfl
@[simp] theorem State.dropWrite_sig : s.dropWrite.sig = s.sig := rfl
@[simp] theorem State.dropWrite_sigok : s.dropWrite.sigok = s.sigok := rfl
@[simp] theorem State.dropWrite_hashok : s.dropWrite.hashok = s.hashok := rfl
@[simp] theorem State.dropWrite_newkey : s.dropWrite.newkey = s.newkey := rfl
@[simp] theorem State.dropWrite_txbuf : s.dropWrite.txbuf = s.txbuf := rfl
@[simp] theorem State.dropWrite_txlen : s.dropWrite.txlen = s.txlen := rfl
@[simp] theorem State.dropWrite_txvalid : s.dropWrite.txvalid = s.txvalid := rfl
@[simp] theorem State.dropWrite_res : s.dropWrite.res = s.res := rfl
@[simp] theorem State.dropWrite_ill : s.dropWrite.ill = true := rfl
@[simp] theorem State.dropWrite_todLast : s.dropWrite.todLast = s.todLast := rfl
@[simp] theorem State.dropWrite_env : s.dropWrite.env = s.env := rfl

/-! ### loadPayload -/

@[simp] theorem State.loadPayload_cfg : s.loadPayload.cfg = s.cfg := rfl
@[simp] theorem State.loadPayload_key : s.loadPayload.key = BitVec.ofNat 256 s.kdKey := rfl
@[simp] theorem State.loadPayload_rk : s.loadPayload.rk = s.rk := rfl
@[simp] theorem State.loadPayload_kvalid : s.loadPayload.kvalid = s.kvalid := rfl
@[simp] theorem State.loadPayload_din : s.loadPayload.din = s.din := rfl
@[simp] theorem State.loadPayload_dout : s.loadPayload.dout = s.dout := rfl
@[simp] theorem State.loadPayload_nonce : s.loadPayload.nonce = BitVec.ofNat 128 s.kdTod := rfl
@[simp] theorem State.loadPayload_msg : s.loadPayload.msg = s.msg := rfl
@[simp] theorem State.loadPayload_mlen : s.loadPayload.mlen = s.mlen := rfl
@[simp] theorem State.loadPayload_cblk : s.loadPayload.cblk = split s.rqPl s.rqPlbits := rfl
@[simp] theorem State.loadPayload_cbn : s.loadPayload.cbn = (split s.rqPl s.rqPlbits).length := rfl
@[simp] theorem State.loadPayload_hstate : s.loadPayload.hstate = s.hstate := rfl
@[simp] theorem State.loadPayload_herr : s.loadPayload.herr = s.herr := rfl
@[simp] theorem State.loadPayload_pubE : s.loadPayload.pubE = s.pubE := rfl
@[simp] theorem State.loadPayload_pubN : s.loadPayload.pubN = s.pubN := rfl
@[simp] theorem State.loadPayload_privD : s.loadPayload.privD = s.privD := rfl
@[simp] theorem State.loadPayload_privN : s.loadPayload.privN = s.privN := rfl
@[simp] theorem State.loadPayload_rxbuf : s.loadPayload.rxbuf = s.rxbuf := rfl
@[simp] theorem State.loadPayload_rxlen : s.loadPayload.rxlen = s.rxlen := rfl
@[simp] theorem State.loadPayload_rqSk : s.loadPayload.rqSk = s.rqSk := rfl
@[simp] theorem State.loadPayload_rqPl : s.loadPayload.rqPl = s.rqPl := rfl
@[simp] theorem State.loadPayload_rqPlbits : s.loadPayload.rqPlbits = s.rqPlbits := rfl
@[simp] theorem State.loadPayload_kdKey : s.loadPayload.kdKey = s.kdKey := rfl
@[simp] theorem State.loadPayload_kdTod : s.loadPayload.kdTod = s.kdTod := rfl
@[simp] theorem State.loadPayload_kdCanon : s.loadPayload.kdCanon = s.kdCanon := rfl
@[simp] theorem State.loadPayload_adCanon : s.loadPayload.adCanon = s.adCanon := rfl
@[simp] theorem State.loadPayload_adHash : s.loadPayload.adHash = s.adHash := rfl
@[simp] theorem State.loadPayload_sig : s.loadPayload.sig = s.sig := rfl
@[simp] theorem State.loadPayload_sigok : s.loadPayload.sigok = s.sigok := rfl
@[simp] theorem State.loadPayload_hashok : s.loadPayload.hashok = s.hashok := rfl
@[simp] theorem State.loadPayload_newkey : s.loadPayload.newkey = s.newkey := rfl
@[simp] theorem State.loadPayload_txbuf : s.loadPayload.txbuf = s.txbuf := rfl
@[simp] theorem State.loadPayload_txlen : s.loadPayload.txlen = s.txlen := rfl
@[simp] theorem State.loadPayload_txvalid : s.loadPayload.txvalid = s.txvalid := rfl
@[simp] theorem State.loadPayload_res : s.loadPayload.res = s.res := rfl
@[simp] theorem State.loadPayload_ill : s.loadPayload.ill = s.ill := rfl
@[simp] theorem State.loadPayload_todLast : s.loadPayload.todLast = s.todLast := rfl
@[simp] theorem State.loadPayload_env : s.loadPayload.env = s.env := rfl

/-! ### putResponse -/

@[simp] theorem State.putResponse_cfg (k : BitVec 256) (b : Bytes) : (s.putResponse k b).cfg = s.cfg := rfl
@[simp] theorem State.putResponse_key (k : BitVec 256) (b : Bytes) : (s.putResponse k b).key = s.key := rfl
@[simp] theorem State.putResponse_rk (k : BitVec 256) (b : Bytes) : (s.putResponse k b).rk = s.rk := rfl
@[simp] theorem State.putResponse_kvalid (k : BitVec 256) (b : Bytes) : (s.putResponse k b).kvalid = s.kvalid := rfl
@[simp] theorem State.putResponse_din (k : BitVec 256) (b : Bytes) : (s.putResponse k b).din = s.din := rfl
@[simp] theorem State.putResponse_dout (k : BitVec 256) (b : Bytes) : (s.putResponse k b).dout = s.dout := rfl
@[simp] theorem State.putResponse_nonce (k : BitVec 256) (b : Bytes) : (s.putResponse k b).nonce = s.nonce := rfl
@[simp] theorem State.putResponse_msg (k : BitVec 256) (b : Bytes) : (s.putResponse k b).msg = s.msg := rfl
@[simp] theorem State.putResponse_mlen (k : BitVec 256) (b : Bytes) : (s.putResponse k b).mlen = s.mlen := rfl
@[simp] theorem State.putResponse_cblk (k : BitVec 256) (b : Bytes) : (s.putResponse k b).cblk = s.cblk := rfl
@[simp] theorem State.putResponse_cbn (k : BitVec 256) (b : Bytes) : (s.putResponse k b).cbn = s.cbn := rfl
@[simp] theorem State.putResponse_hstate (k : BitVec 256) (b : Bytes) : (s.putResponse k b).hstate = s.hstate := rfl
@[simp] theorem State.putResponse_herr (k : BitVec 256) (b : Bytes) : (s.putResponse k b).herr = s.herr := rfl
@[simp] theorem State.putResponse_pubE (k : BitVec 256) (b : Bytes) : (s.putResponse k b).pubE = s.pubE := rfl
@[simp] theorem State.putResponse_pubN (k : BitVec 256) (b : Bytes) : (s.putResponse k b).pubN = s.pubN := rfl
@[simp] theorem State.putResponse_privD (k : BitVec 256) (b : Bytes) : (s.putResponse k b).privD = s.privD := rfl
@[simp] theorem State.putResponse_privN (k : BitVec 256) (b : Bytes) : (s.putResponse k b).privN = s.privN := rfl
@[simp] theorem State.putResponse_rxbuf (k : BitVec 256) (b : Bytes) : (s.putResponse k b).rxbuf = s.rxbuf := rfl
@[simp] theorem State.putResponse_rxlen (k : BitVec 256) (b : Bytes) : (s.putResponse k b).rxlen = s.rxlen := rfl
@[simp] theorem State.putResponse_rqSk (k : BitVec 256) (b : Bytes) : (s.putResponse k b).rqSk = s.rqSk := rfl
@[simp] theorem State.putResponse_rqPl (k : BitVec 256) (b : Bytes) : (s.putResponse k b).rqPl = s.rqPl := rfl
@[simp] theorem State.putResponse_rqPlbits (k : BitVec 256) (b : Bytes) : (s.putResponse k b).rqPlbits = s.rqPlbits := rfl
@[simp] theorem State.putResponse_kdKey (k : BitVec 256) (b : Bytes) : (s.putResponse k b).kdKey = s.kdKey := rfl
@[simp] theorem State.putResponse_kdTod (k : BitVec 256) (b : Bytes) : (s.putResponse k b).kdTod = s.kdTod := rfl
@[simp] theorem State.putResponse_kdCanon (k : BitVec 256) (b : Bytes) : (s.putResponse k b).kdCanon = s.kdCanon := rfl
@[simp] theorem State.putResponse_adCanon (k : BitVec 256) (b : Bytes) : (s.putResponse k b).adCanon = s.adCanon := rfl
@[simp] theorem State.putResponse_adHash (k : BitVec 256) (b : Bytes) : (s.putResponse k b).adHash = s.adHash := rfl
@[simp] theorem State.putResponse_sig (k : BitVec 256) (b : Bytes) : (s.putResponse k b).sig = s.sig := rfl
@[simp] theorem State.putResponse_sigok (k : BitVec 256) (b : Bytes) : (s.putResponse k b).sigok = s.sigok := rfl
@[simp] theorem State.putResponse_hashok (k : BitVec 256) (b : Bytes) : (s.putResponse k b).hashok = s.hashok := rfl
@[simp] theorem State.putResponse_newkey (k : BitVec 256) (b : Bytes) : (s.putResponse k b).newkey = k := rfl
@[simp] theorem State.putResponse_txbuf (k : BitVec 256) (b : Bytes) : (s.putResponse k b).txbuf = Memory.ofBytes (frameBuild typeResponse b) := rfl
@[simp] theorem State.putResponse_txlen (k : BitVec 256) (b : Bytes) : (s.putResponse k b).txlen = 9 + b.length := rfl
@[simp] theorem State.putResponse_txvalid (k : BitVec 256) (b : Bytes) : (s.putResponse k b).txvalid = true := rfl
@[simp] theorem State.putResponse_res (k : BitVec 256) (b : Bytes) : (s.putResponse k b).res = s.res := rfl
@[simp] theorem State.putResponse_ill (k : BitVec 256) (b : Bytes) : (s.putResponse k b).ill = s.ill := rfl
@[simp] theorem State.putResponse_todLast (k : BitVec 256) (b : Bytes) : (s.putResponse k b).todLast = s.todLast := rfl
@[simp] theorem State.putResponse_env (k : BitVec 256) (b : Bytes) : (s.putResponse k b).env = s.env := rfl

/-! ### serveRead -/

@[simp] theorem State.serveRead_cfg (n : BitVec 5) : (s.serveRead n).cfg = s.cfg := rfl
@[simp] theorem State.serveRead_key (n : BitVec 5) : (s.serveRead n).key = s.key := rfl
@[simp] theorem State.serveRead_rk (n : BitVec 5) : (s.serveRead n).rk = s.rk := rfl
@[simp] theorem State.serveRead_kvalid (n : BitVec 5) : (s.serveRead n).kvalid = s.kvalid := rfl
@[simp] theorem State.serveRead_din (n : BitVec 5) : (s.serveRead n).din = s.din := rfl
@[simp] theorem State.serveRead_dout (n : BitVec 5) : (s.serveRead n).dout = s.dout := rfl
@[simp] theorem State.serveRead_nonce (n : BitVec 5) : (s.serveRead n).nonce = s.nonce := rfl
@[simp] theorem State.serveRead_msg (n : BitVec 5) : (s.serveRead n).msg = s.msg := rfl
@[simp] theorem State.serveRead_mlen (n : BitVec 5) : (s.serveRead n).mlen = s.mlen := rfl
@[simp] theorem State.serveRead_cblk (n : BitVec 5) : (s.serveRead n).cblk = s.cblk := rfl
@[simp] theorem State.serveRead_cbn (n : BitVec 5) : (s.serveRead n).cbn = s.cbn := rfl
@[simp] theorem State.serveRead_hstate (n : BitVec 5) : (s.serveRead n).hstate = s.hstate := rfl
@[simp] theorem State.serveRead_herr (n : BitVec 5) : (s.serveRead n).herr = s.herr := rfl
@[simp] theorem State.serveRead_pubE (n : BitVec 5) : (s.serveRead n).pubE = s.pubE := rfl
@[simp] theorem State.serveRead_pubN (n : BitVec 5) : (s.serveRead n).pubN = s.pubN := rfl
@[simp] theorem State.serveRead_privD (n : BitVec 5) : (s.serveRead n).privD = s.privD := rfl
@[simp] theorem State.serveRead_privN (n : BitVec 5) : (s.serveRead n).privN = s.privN := rfl
@[simp] theorem State.serveRead_rxbuf (n : BitVec 5) : (s.serveRead n).rxbuf = s.rxbuf := rfl
@[simp] theorem State.serveRead_rxlen (n : BitVec 5) : (s.serveRead n).rxlen = s.rxlen := rfl
@[simp] theorem State.serveRead_rqSk (n : BitVec 5) : (s.serveRead n).rqSk = s.rqSk := rfl
@[simp] theorem State.serveRead_rqPl (n : BitVec 5) : (s.serveRead n).rqPl = s.rqPl := rfl
@[simp] theorem State.serveRead_rqPlbits (n : BitVec 5) : (s.serveRead n).rqPlbits = s.rqPlbits := rfl
@[simp] theorem State.serveRead_kdKey (n : BitVec 5) : (s.serveRead n).kdKey = s.kdKey := rfl
@[simp] theorem State.serveRead_kdTod (n : BitVec 5) : (s.serveRead n).kdTod = s.kdTod := rfl
@[simp] theorem State.serveRead_kdCanon (n : BitVec 5) : (s.serveRead n).kdCanon = s.kdCanon := rfl
@[simp] theorem State.serveRead_adCanon (n : BitVec 5) : (s.serveRead n).adCanon = s.adCanon := rfl
@[simp] theorem State.serveRead_adHash (n : BitVec 5) : (s.serveRead n).adHash = s.adHash := rfl
@[simp] theorem State.serveRead_sig (n : BitVec 5) : (s.serveRead n).sig = s.sig := rfl
@[simp] theorem State.serveRead_sigok (n : BitVec 5) : (s.serveRead n).sigok = s.sigok := rfl
@[simp] theorem State.serveRead_hashok (n : BitVec 5) : (s.serveRead n).hashok = s.hashok := rfl
@[simp] theorem State.serveRead_newkey (n : BitVec 5) : (s.serveRead n).newkey = s.newkey := rfl
@[simp] theorem State.serveRead_txbuf (n : BitVec 5) : (s.serveRead n).txbuf = s.txbuf := rfl
@[simp] theorem State.serveRead_txlen (n : BitVec 5) : (s.serveRead n).txlen = s.txlen := rfl
@[simp] theorem State.serveRead_txvalid (n : BitVec 5) : (s.serveRead n).txvalid = s.txvalid := rfl
@[simp] theorem State.serveRead_res (n : BitVec 5) : (s.serveRead n).res = s.res := rfl
@[simp] theorem State.serveRead_ill (n : BitVec 5) : (s.serveRead n).ill = s.ill := rfl
@[simp] theorem State.serveRead_todLast (n : BitVec 5) : (s.serveRead n).todLast = s.todLast := rfl
@[simp] theorem State.serveRead_env (n : BitVec 5) : (s.serveRead n).env = { s.env with rdata := s.readReg n } := rfl

/-! ### withHostView -/

@[simp] theorem State.withHostView_cfg (r : CmdResult) (b : Bool) (v : RegValue) : (s.withHostView r b v).cfg = s.cfg := rfl
@[simp] theorem State.withHostView_key (r : CmdResult) (b : Bool) (v : RegValue) : (s.withHostView r b v).key = s.key := rfl
@[simp] theorem State.withHostView_rk (r : CmdResult) (b : Bool) (v : RegValue) : (s.withHostView r b v).rk = s.rk := rfl
@[simp] theorem State.withHostView_kvalid (r : CmdResult) (b : Bool) (v : RegValue) : (s.withHostView r b v).kvalid = s.kvalid := rfl
@[simp] theorem State.withHostView_din (r : CmdResult) (b : Bool) (v : RegValue) : (s.withHostView r b v).din = s.din := rfl
@[simp] theorem State.withHostView_dout (r : CmdResult) (b : Bool) (v : RegValue) : (s.withHostView r b v).dout = s.dout := rfl
@[simp] theorem State.withHostView_nonce (r : CmdResult) (b : Bool) (v : RegValue) : (s.withHostView r b v).nonce = s.nonce := rfl
@[simp] theorem State.withHostView_msg (r : CmdResult) (b : Bool) (v : RegValue) : (s.withHostView r b v).msg = s.msg := rfl
@[simp] theorem State.withHostView_mlen (r : CmdResult) (b : Bool) (v : RegValue) : (s.withHostView r b v).mlen = s.mlen := rfl
@[simp] theorem State.withHostView_cblk (r : CmdResult) (b : Bool) (v : RegValue) : (s.withHostView r b v).cblk = s.cblk := rfl
@[simp] theorem State.withHostView_cbn (r : CmdResult) (b : Bool) (v : RegValue) : (s.withHostView r b v).cbn = s.cbn := rfl
@[simp] theorem State.withHostView_hstate (r : CmdResult) (b : Bool) (v : RegValue) : (s.withHostView r b v).hstate = s.hstate := rfl
@[simp] theorem State.withHostView_herr (r : CmdResult) (b : Bool) (v : RegValue) : (s.withHostView r b v).herr = s.herr := rfl
@[simp] theorem State.withHostView_pubE (r : CmdResult) (b : Bool) (v : RegValue) : (s.withHostView r b v).pubE = s.pubE := rfl
@[simp] theorem State.withHostView_pubN (r : CmdResult) (b : Bool) (v : RegValue) : (s.withHostView r b v).pubN = s.pubN := rfl
@[simp] theorem State.withHostView_privD (r : CmdResult) (b : Bool) (v : RegValue) : (s.withHostView r b v).privD = s.privD := rfl
@[simp] theorem State.withHostView_privN (r : CmdResult) (b : Bool) (v : RegValue) : (s.withHostView r b v).privN = s.privN := rfl
@[simp] theorem State.withHostView_rxbuf (r : CmdResult) (b : Bool) (v : RegValue) : (s.withHostView r b v).rxbuf = s.rxbuf := rfl
@[simp] theorem State.withHostView_rxlen (r : CmdResult) (b : Bool) (v : RegValue) : (s.withHostView r b v).rxlen = s.rxlen := rfl
@[simp] theorem State.withHostView_rqSk (r : CmdResult) (b : Bool) (v : RegValue) : (s.withHostView r b v).rqSk = s.rqSk := rfl
@[simp] theorem State.withHostView_rqPl (r : CmdResult) (b : Bool) (v : RegValue) : (s.withHostView r b v).rqPl = s.rqPl := rfl
@[simp] theorem State.withHostView_rqPlbits (r : CmdResult) (b : Bool) (v : RegValue) : (s.withHostView r b v).rqPlbits = s.rqPlbits := rfl
@[simp] theorem State.withHostView_kdKey (r : CmdResult) (b : Bool) (v : RegValue) : (s.withHostView r b v).kdKey = s.kdKey := rfl
@[simp] theorem State.withHostView_kdTod (r : CmdResult) (b : Bool) (v : RegValue) : (s.withHostView r b v).kdTod = s.kdTod := rfl
@[simp] theorem State.withHostView_kdCanon (r : CmdResult) (b : Bool) (v : RegValue) : (s.withHostView r b v).kdCanon = s.kdCanon := rfl
@[simp] theorem State.withHostView_adCanon (r : CmdResult) (b : Bool) (v : RegValue) : (s.withHostView r b v).adCanon = s.adCanon := rfl
@[simp] theorem State.withHostView_adHash (r : CmdResult) (b : Bool) (v : RegValue) : (s.withHostView r b v).adHash = s.adHash := rfl
@[simp] theorem State.withHostView_sig (r : CmdResult) (b : Bool) (v : RegValue) : (s.withHostView r b v).sig = s.sig := rfl
@[simp] theorem State.withHostView_sigok (r : CmdResult) (b : Bool) (v : RegValue) : (s.withHostView r b v).sigok = s.sigok := rfl
@[simp] theorem State.withHostView_hashok (r : CmdResult) (b : Bool) (v : RegValue) : (s.withHostView r b v).hashok = s.hashok := rfl
@[simp] theorem State.withHostView_newkey (r : CmdResult) (b : Bool) (v : RegValue) : (s.withHostView r b v).newkey = s.newkey := rfl
@[simp] theorem State.withHostView_txbuf (r : CmdResult) (b : Bool) (v : RegValue) : (s.withHostView r b v).txbuf = s.txbuf := rfl
@[simp] theorem State.withHostView_txlen (r : CmdResult) (b : Bool) (v : RegValue) : (s.withHostView r b v).txlen = s.txlen := rfl
@[simp] theorem State.withHostView_txvalid (r : CmdResult) (b : Bool) (v : RegValue) : (s.withHostView r b v).txvalid = s.txvalid := rfl
@[simp] theorem State.withHostView_res (r : CmdResult) (b : Bool) (v : RegValue) : (s.withHostView r b v).res = r := rfl
@[simp] theorem State.withHostView_ill (r : CmdResult) (b : Bool) (v : RegValue) : (s.withHostView r b v).ill = b := rfl
@[simp] theorem State.withHostView_todLast (r : CmdResult) (b : Bool) (v : RegValue) : (s.withHostView r b v).todLast = s.todLast := rfl
@[simp] theorem State.withHostView_env (r : CmdResult) (b : Bool) (v : RegValue) : (s.withHostView r b v).env = { s.env with rdata := v } := rfl

/-! ### withInbox -/

@[simp] theorem State.withInbox_cfg (q : List Event) : (s.withInbox q).cfg = s.cfg := rfl
@[simp] theorem State.withInbox_key (q : List Event) : (s.withInbox q).key = s.key := rfl
@[simp] theorem State.withInbox_rk (q : List Event) : (s.withInbox q).rk = s.rk := rfl
@[simp] theorem State.withInbox_kvalid (q : List Event) : (s.withInbox q).kvalid = s.kvalid := rfl
@[simp] theorem State.withInbox_din (q : List Event) : (s.withInbox q).din = s.din := rfl
@[simp] theorem State.withInbox_dout (q : List Event) : (s.withInbox q).dout = s.dout := rfl
@[simp] theorem State.withInbox_nonce (q : List Event) : (s.withInbox q).nonce = s.nonce := rfl
@[simp] theorem State.withInbox_msg (q : List Event) : (s.withInbox q).msg = s.msg := rfl
@[simp] theorem State.withInbox_mlen (q : List Event) : (s.withInbox q).mlen = s.mlen := rfl
@[simp] theorem State.withInbox_cblk (q : List Event) : (s.withInbox q).cblk = s.cblk := rfl
@[simp] theorem State.withInbox_cbn (q : List Event) : (s.withInbox q).cbn = s.cbn := rfl
@[simp] theorem State.withInbox_hstate (q : List Event) : (s.withInbox q).hstate = s.hstate := rfl
@[simp] theorem State.withInbox_herr (q : List Event) : (s.withInbox q).herr = s.herr := rfl
@[simp] theorem State.withInbox_pubE (q : List Event) : (s.withInbox q).pubE = s.pubE := rfl
@[simp] theorem State.withInbox_pubN (q : List Event) : (s.withInbox q).pubN = s.pubN := rfl
@[simp] theorem State.withInbox_privD (q : List Event) : (s.withInbox q).privD = s.privD := rfl
@[simp] theorem State.withInbox_privN (q : List Event) : (s.withInbox q).privN = s.privN := rfl
@[simp] theorem State.withInbox_rxbuf (q : List Event) : (s.withInbox q).rxbuf = s.rxbuf := rfl
@[simp] theorem State.withInbox_rxlen (q : List Event) : (s.withInbox q).rxlen = s.rxlen := rfl
@[simp] theorem State.withInbox_rqSk (q : List Event) : (s.withInbox q).rqSk = s.rqSk := rfl
@[simp] theorem State.withInbox_rqPl (q : List Event) : (s.withInbox q).rqPl = s.rqPl := rfl
@[simp] theorem State.withInbox_rqPlbits (q : List Event) : (s.withInbox q).rqPlbits = s.rqPlbits := rfl
@[simp] theorem State.withInbox_kdKey (q : List Event) : (s.withInbox q).kdKey = s.kdKey := rfl
@[simp] theorem State.withInbox_kdTod (q : List Event) : (s.withInbox q).kdTod = s.kdTod := rfl
@[simp] theorem State.withInbox_kdCanon (q : List Event) : (s.withInbox q).kdCanon = s.kdCanon := rfl
@[simp] theorem State.withInbox_adCanon (q : List Event) : (s.withInbox q).adCanon = s.adCanon := rfl
@[simp] theorem State.withInbox_adHash (q : List Event) : (s.withInbox q).adHash = s.adHash := rfl
@[simp] theorem State.withInbox_sig (q : List Event) : (s.withInbox q).sig = s.sig := rfl
@[simp] theorem State.withInbox_sigok (q : List Event) : (s.withInbox q).sigok = s.sigok := rfl
@[simp] theorem State.withInbox_hashok (q : List Event) : (s.withInbox q).hashok = s.hashok := rfl
@[simp] theorem State.withInbox_newkey (q : List Event) : (s.withInbox q).newkey = s.newkey := rfl
@[simp] theorem State.withInbox_txbuf (q : List Event) : (s.withInbox q).txbuf = s.txbuf := rfl
@[simp] theorem State.withInbox_txlen (q : List Event) : (s.withInbox q).txlen = s.txlen := rfl
@[simp] theorem State.withInbox_txvalid (q : List Event) : (s.withInbox q).txvalid = s.txvalid := rfl
@[simp] theorem State.withInbox_res (q : List Event) : (s.withInbox q).res = s.res := rfl
@[simp] theorem State.withInbox_ill (q : List Event) : (s.withInbox q).ill = s.ill := rfl
@[simp] theorem State.withInbox_todLast (q : List Event) : (s.withInbox q).todLast = s.todLast := rfl
@[simp] theorem State.withInbox_env (q : List Event) : (s.withInbox q).env = { s.env with inbox := q } := rfl

end Sys2Proof.Machine
end

