-- ==== Sys2Proof/Laws/Ops.lean ====
section
/-! SUPPORT. One lemma for each shared operation that says once everything it can do. -/

namespace Sys2Proof.Machine

open Sys2Proof

/-! ### The ends of an operation -/

/-- A command ends in success, in a rejection or in an error, and only success commits writes (30_encoding.md R72). -/
theorem finishCommand_cases (s : State) (r : Except CommandStop State) :
    (∃ t, r = .ok t ∧ s.finishCommand r = { t with res := .ok }) ∨
    (r = .error .reject ∧ s.finishCommand r = s.reject) ∨
    (∃ e, r = .error (.raise e) ∧ s.finishCommand r = s.takeError .command e) := by
  cases r with
  | ok t => exact .inl ⟨t, rfl, rfl⟩
  | error x =>
    cases x with
    | reject => exact .inr (.inl ⟨rfl, rfl⟩)
    | raise e => exact .inr (.inr ⟨e, rfl, rfl⟩)

/-- A sequencer step completes or closes the session (42_handshake.md R146). -/
theorem finishStep_cases (s : State) (r : Except WtError State) :
    (∃ t, r = .ok t ∧ s.finishStep r = t) ∨ (∃ e, r = .error e ∧ s.finishStep r = s.takeError .sequencer e) := by
  cases r with
  | ok t => exact .inl ⟨t, rfl, rfl⟩
  | error e => exact .inr ⟨e, rfl, rfl⟩

@[simp] theorem finishCommand_ok (s t : State) : s.finishCommand (.ok t) = { t with res := .ok } := rfl
@[simp] theorem finishCommand_reject (s : State) : s.finishCommand (.error .reject) = s.reject := rfl
@[simp] theorem finishCommand_raise (s : State) (e : WtError) :
    s.finishCommand (.error (.raise e)) = s.takeError .command e := rfl
@[simp] theorem finishStep_ok (s t : State) : s.finishStep (.ok t) = t := rfl
@[simp] theorem finishStep_error (s : State) (e : WtError) : s.finishStep (.error e) = s.takeError .sequencer e := rfl
@[simp] theorem ifAdmitted_true (s t : State) : s.ifAdmitted true t = t := rfl
@[simp] theorem ifAdmitted_false (s t : State) : s.ifAdmitted false t = s.reject := rfl

/-- A command is performed or rejected by admission (30_encoding.md R72 (2)). -/
theorem ifAdmitted_cases (s : State) (b : Bool) (t : State) :
    (b = true ∧ s.ifAdmitted b t = t) ∨ (b = false ∧ s.ifAdmitted b t = s.reject) := by
  cases b with
  | true => exact .inl ⟨rfl, rfl⟩
  | false => exact .inr ⟨rfl, rfl⟩

/-- A step is taken in the state that selects it and nowhere else. -/
theorem ifSelected_cases (s : State) (h : HState) (t : State) :
    (s.hstate = h ∧ s.ifSelected h t = t) ∨ (s.hstate ≠ h ∧ s.ifSelected h t = s) := by
  by_cases e : s.hstate = h
  · exact .inl ⟨e, if_pos e⟩
  · exact .inr ⟨e, if_neg e⟩

theorem ifSelected_pos {s : State} {h : HState} (t : State) (e : s.hstate = h) : s.ifSelected h t = t := if_pos e

/-! ### The BC unit -/

/-- `BC.ENC` and `BC.DEC` write `DOUT` alone, reject without a schedule, and raise `DomainError` on a block out of range. -/
theorem blockRule_cases (f : Nat → Nat) (s : State) :
    (s.kvalid = true ∧ s.din.toNat < 2 ^ s.cfg.bs.toNat ∧
      blockRule f s = .ok { s with dout := BitVec.ofNat 128 (f s.din.toNat) }) ∨
    (s.kvalid = false ∧ blockRule f s = .error .reject) ∨
    (s.kvalid = true ∧ 2 ^ s.cfg.bs.toNat ≤ s.din.toNat ∧ blockRule f s = .error (.raise .domainError)) := by
  cases hk : s.kvalid with
  | false => exact .inr (.inl ⟨rfl, by simp [blockRule, hk]⟩)
  | true =>
    by_cases hd : 2 ^ s.cfg.bs.toNat ≤ s.din.toNat
    · exact .inr (.inr ⟨rfl, hd, by simp [blockRule, hk, hd]⟩)
    · exact .inl ⟨rfl, by omega, by simp [blockRule, hk, hd]⟩

/-- `BC.REKEY` expands the key, rejects an invalid configuration, and raises `DomainError` on a key out of range. -/
theorem bcRekeyRule_cases (s : State) :
    (validCfg s.cfg.bs.toNat s.cfg.ks.toNat = true ∧ s.key.toNat < 2 ^ s.cfg.ks.toNat ∧ bcRekeyRule s = .ok s.keyExp) ∨
    (validCfg s.cfg.bs.toNat s.cfg.ks.toNat = false ∧ bcRekeyRule s = .error .reject) ∨
    (validCfg s.cfg.bs.toNat s.cfg.ks.toNat = true ∧ 2 ^ s.cfg.ks.toNat ≤ s.key.toNat ∧
      bcRekeyRule s = .error (.raise .domainError)) := by
  cases hv : validCfg s.cfg.bs.toNat s.cfg.ks.toNat with
  | false => exact .inr (.inl ⟨rfl, by simp [bcRekeyRule, hv]⟩)
  | true =>
    by_cases hk : 2 ^ s.cfg.ks.toNat ≤ s.key.toNat
    · exact .inr (.inr ⟨rfl, hk, by simp [bcRekeyRule, hv, hk]⟩)
    · exact .inl ⟨rfl, by omega, by simp [bcRekeyRule, hv, hk]⟩

/-! ### The CS unit -/

/-- The state `CS_INIT` leaves: the protocol's configuration and the schedule of `KEY` (41_counterstream.md R128). -/
theorem csInit_eq (s : State) : s.csInit = .ok { s with cfg := protoCfg s.env.protoVariant }.keyExp :=
  if_neg (Nat.not_le.mpr s.key.isLt)

/-- What `CS_INIT` leaves has the dimensions of the protocol (00_scope.md R9). -/
@[simp] theorem protoCfg_dim (v : Variant) : (protoCfg v).dim = 64 := by simp [protoCfg, Cfg.dim]
@[simp] theorem protoCfg_m (v : Variant) : (protoCfg v).m = 4 := by simp [protoCfg, Cfg.dim, Cfg.m]

/-- `streamDecrypt` writes `CFG`, `RK`, `KVALID`, `MSG`, `MLEN`, or raises one of two errors. -/
theorem streamDecrypt_cases (l : List Block) (s : State) :
    (∃ p n, ctrOverflow s.nonce l.length = false ∧
      streamDec { s with cfg := protoCfg s.env.protoVariant }.keyExp.ksb l = .ok (p, n) ∧
      streamDecrypt l s = .ok { { s with cfg := protoCfg s.env.protoVariant }.keyExp with msg := p, mlen := n }) ∨
    (ctrOverflow s.nonce l.length = true ∧ streamDecrypt l s = .error .domainError) ∨
    (ctrOverflow s.nonce l.length = false ∧
      streamDec { s with cfg := protoCfg s.env.protoVariant }.keyExp.ksb l = .error .framingError ∧
      streamDecrypt l s = .error .framingError) := by
  unfold streamDecrypt
  rw [csInit_eq]
  cases hc : ctrOverflow s.nonce l.length with
  | true => exact .inr (.inl ⟨rfl, by simp [hc]⟩)
  | false =>
    by_cases hb : bitlen (joinFields (0, 0) (xorFields { s with cfg := protoCfg s.env.protoVariant }.keyExp.ksb 0 l)).1
        = (joinFields (0, 0) (xorFields { s with cfg := protoCfg s.env.protoVariant }.keyExp.ksb 0 l)).2
    · exact .inl ⟨_, _, rfl, if_pos hb, by simp [hc, streamDec, hb]⟩
    · exact .inr (.inr ⟨rfl, if_neg hb, by simp [hc, streamDec, hb]⟩)

/-- `CS.ENC` writes what 41_counterstream.md R129 lists, or raises `DomainError`. -/
theorem csEncRule_cases (t : BitVec 64) (s : State) :
    (ctrOverflow (nonceOf t) (numBlocks (bitlen s.msg)) = false ∧
      csEncRule t s = .ok
        (let u := { s with todLast := t, nonce := nonceOf t, cfg := protoCfg s.env.protoVariant }.keyExp
         { u with cblk := streamEnc u.ksb s.msg, cbn := numBlocks (bitlen s.msg), mlen := bitlen s.msg })) ∨
    (ctrOverflow (nonceOf t) (numBlocks (bitlen s.msg)) = true ∧ csEncRule t s = .error (.raise .domainError)) := by
  unfold csEncRule
  rw [csInit_eq]
  cases hc : ctrOverflow (nonceOf t) (numBlocks (bitlen s.msg)) with
  | true => exact .inr ⟨rfl, by simp [hc]⟩
  | false => exact .inl ⟨rfl, by simp [hc]⟩

/-- `CS.DEC` checks the shape, then decrypts. -/
theorem csDecRule_cases (s : State) :
    (cbOk s.blocks = true ∧ ∃ t, streamDecrypt s.blocks s = .ok t ∧ csDecRule s = .ok t) ∨
    (cbOk s.blocks = false ∧ csDecRule s = .error (.raise .framingError)) ∨
    (cbOk s.blocks = true ∧ ∃ e, streamDecrypt s.blocks s = .error e ∧ csDecRule s = .error (.raise e)) := by
  cases hc : cbOk s.blocks with
  | false => exact .inr (.inl ⟨rfl, by simp [csDecRule, hc]⟩)
  | true =>
    cases hd : streamDecrypt s.blocks s with
    | ok t => exact .inl ⟨rfl, t, rfl, by simp [csDecRule, hc, hd]⟩
    | error e => exact .inr (.inr ⟨rfl, e, rfl, by simp [csDecRule, hc, hd]⟩)

/-! ### The HS unit -/

/-- A digest has 64 bytes (43_external_primitives.md R171). -/
@[simp] theorem sha3_512_length (b : Bytes) : (sha3_512 b).length = 64 := by simp [sha3_512]

/-- `frame_check` answers a payload or raises `FramingError`, no other error. -/
theorem frameCheck_error {b : Bytes} {t : Byte} {e : WtError} (h : frameCheck b t = .error e) : e = .framingError := by
  unfold frameCheck at h
  repeat' split at h
  all_goals first
    | exact (Except.error.inj h).symm
    | exact absurd h (by simp)

/-- The received request is well formed and narrow enough, or the error is `FramingError` (42_handshake.md R150). -/
theorem receivedRequest_cases (s : State) :
    (∃ body r, frameCheck (s.rxbuf.slice s.rxlen) typeRequest = .ok body ∧ s.env.parseRequest body = some r ∧
      r.pl < 2 ^ r.plbits ∧ receivedRequest s = .ok r) ∨
    receivedRequest s = .error .framingError := by
  unfold receivedRequest
  cases hf : frameCheck (s.rxbuf.slice s.rxlen) typeRequest with
  | error e => exact .inr (by rw [frameCheck_error hf])
  | ok body =>
    cases hp : s.env.parseRequest body with
    | none => exact .inr (by simp [hp])
    | some r =>
      by_cases hw : 2 ^ r.plbits ≤ r.pl
      · exact .inr (by simp [hp, hw])
      · exact .inl ⟨body, r, rfl, hp, by omega, by simp [hp, hw]⟩

/-- Step `VALIDATE_REQUEST` stores the request or raises `FramingError`. -/
theorem validateRequestRule_cases (s : State) :
    (∃ r, receivedRequest s = .ok r ∧ r.pl < 2 ^ r.plbits ∧
      validateRequestRule s =
        .ok { s with rqSk := r.sk, rqPl := r.pl, rqPlbits := r.plbits, hstate := .decryptSessionKey }) ∨
    (receivedRequest s = .error .framingError ∧ validateRequestRule s = .error .framingError) := by
  rcases receivedRequest_cases s with ⟨_, r, _, _, hw, h⟩ | h
  · exact .inl ⟨r, h, hw, by simp [validateRequestRule, h]⟩
  · exact .inr ⟨h, by simp [validateRequestRule, h]⟩

/-- Step `DECRYPT_SESSION_KEY` stores the key data or raises `KeyRecoveryError`. -/
theorem decryptSessionKeyRule_cases (s : State) :
    (∃ kd, recoveredKeyData s = .ok kd ∧
      decryptSessionKeyRule s =
        .ok { s with kdKey := kd.key, kdTod := kd.tod, kdCanon := kd.canon, hstate := .decryptPayload }) ∨
    (recoveredKeyData s = .error .keyRecoveryError ∧ decryptSessionKeyRule s = .error .keyRecoveryError) := by
  have h : (∃ kd, recoveredKeyData s = .ok kd) ∨ recoveredKeyData s = .error .keyRecoveryError := by
    unfold recoveredKeyData
    split
    · exact .inr rfl
    · split
      · exact .inr rfl
      · exact .inl ⟨_, rfl⟩
  rcases h with ⟨kd, h⟩ | h
  · exact .inl ⟨kd, h, by simp [decryptSessionKeyRule, h]⟩
  · exact .inr ⟨h, by simp [decryptSessionKeyRule, h]⟩

/-- The decrypted message decodes to a payload or the error is `PayloadDecodeError`. -/
theorem decodedPayload_cases (s : State) :
    (∃ p, decodedPayload s = .ok p) ∨ decodedPayload s = .error .payloadDecodeError := by
  unfold decodedPayload
  split
  · exact .inr rfl
  · split
    · exact .inr rfl
    · exact .inl ⟨_, rfl⟩

/-- Step `DECRYPT_PAYLOAD` stores the payload or raises one of three errors (42_handshake.md R153). -/
theorem decryptPayloadRule_cases (s : State) :
    (∃ t p, s.kdKey < 2 ^ 256 ∧ s.kdTod < 2 ^ 128 ∧
      streamDecrypt (split s.rqPl s.rqPlbits) s.loadPayload = .ok t ∧ decodedPayload t = .ok p ∧
      decryptPayloadRule s =
        .ok { t with adCanon := p.adCanon, adHash := p.adHash, sig := p.sig, hstate := .verifySignature }) ∨
    (∃ e ∈ [WtError.domainError, .framingError, .payloadDecodeError], decryptPayloadRule s = .error e) := by
  unfold decryptPayloadRule
  by_cases hr : 2 ^ 256 ≤ s.kdKey ∨ 2 ^ 128 ≤ s.kdTod
  · exact .inr ⟨.domainError, by simp, if_pos hr⟩
  · rw [if_neg hr]
    rcases streamDecrypt_cases (split s.rqPl s.rqPlbits) s.loadPayload with ⟨p, n, _, _, h⟩ | ⟨_, h⟩ | ⟨_, _, h⟩
    · rw [h]
      rcases decodedPayload_cases { { s.loadPayload with cfg := protoCfg s.loadPayload.env.protoVariant }.keyExp with
        msg := p, mlen := n } with ⟨q, hq⟩ | hq
      · exact .inl ⟨_, q, by omega, by omega, rfl, hq, by simp only [hq]⟩
      · exact .inr ⟨.payloadDecodeError, by simp, by simp only [hq]⟩
    · exact .inr ⟨.domainError, by simp, by rw [h]⟩
    · exact .inr ⟨.framingError, by simp, by rw [h]⟩

/-- Step `VERIFY_SIGNATURE` accepts exactly a signature whose check equals the digest (42_handshake.md R154). -/
theorem verifySignatureRule_cases (s : State) :
    (modpow s.sig s.pubE s.pubN = digestInt s.adCanon ∧
      verifySignatureRule s = .ok { s with sigok := true, hstate := .verifyHash }) ∨
    (modpow s.sig s.pubE s.pubN ≠ digestInt s.adCanon ∧ verifySignatureRule s = .error .signatureInvalid) := by
  by_cases h : modpow s.sig s.pubE s.pubN = digestInt s.adCanon
  · exact .inl ⟨h, if_neg (not_not.mpr h)⟩
  · exact .inr ⟨h, if_pos h⟩

/-- Step `VERIFY_HASH` accepts exactly the transmitted hash (42_handshake.md R155). -/
theorem verifyHashRule_cases (s : State) :
    (digestInt s.kdCanon = s.adHash ∧ verifyHashRule s = .ok { s with hashok := true, hstate := .buildResponse }) ∨
    (digestInt s.kdCanon ≠ s.adHash ∧ verifyHashRule s = .error .sessionKeyHashMismatch) := by
  by_cases h : digestInt s.kdCanon = s.adHash
  · exact .inl ⟨h, if_neg (not_not.mpr h)⟩
  · exact .inr ⟨h, if_pos h⟩

/-- Step `BUILD_RESPONSE` puts out the frame, or raises `FramingError` on a body no frame holds (42_handshake.md R157). -/
theorem buildResponseRule_cases (k : BitVec 256) (body : Bytes) (s : State) :
    (body.length ≤ Config.bodyMax ∧
      buildResponseRule k body s = .ok { (s.putResponse k body).discardSession with hstate := .sent }) ∨
    (Config.bodyMax < body.length ∧ buildResponseRule k body s = .error .framingError) := by
  by_cases h : Config.bodyMax < body.length
  · exact .inr ⟨h, if_pos h⟩
  · exact .inl ⟨Nat.not_lt.mp h, if_neg h⟩

/-- A frame is its payload and nine bytes (30_encoding.md R84). -/
@[simp] theorem frameBuild_length (t : Byte) (p : Bytes) : (frameBuild t p).length = 9 + p.length := by
  simp [frameBuild, lengthDigits]; omega

end Sys2Proof.Machine
end

