-- ==== Sys2Proof/Laws/PerInstr.lean ====
section
/-! SUPPORT. What holds of every instruction, one lemma per constructor: its code is the one of its row of the opcode table
(30_encoding.md R77), or the code of a sequencer state (R82). -/

namespace Sys2Proof.Laws.RowMatch

open Sys2Proof

/-- The code of a well-formed command is selected by the command's row of the opcode table; a step has no such row and its
code lies in `2..7`. -/
def Statement (i : Instr) : Prop :=
  i.wellFormed = true →
    match encode i with
    | .command w => ∃ r, i.row = some r ∧ r ∈ commandRows ∧ r.selects w = true
    | .state c => i.row = none ∧ 2 ≤ c.toNat ∧ c.toNat ≤ 7

theorem nop : Statement .nop := fun _ => ⟨_, rfl, by decide, by decide⟩

/-- The operand fields of `BC.CFG` lie outside the mask of its row. -/
theorem cfgArg_masked (b : BitVec 8) (k : BitVec 12) (v : BitVec 1) :
    (0x10#8 ++ (0#3 ++ v ++ k ++ b : BitVec 24) : BitVec 32) &&& 0xFFE00000#32 = 0x10000000#32 := by
  apply BitVec.eq_of_getLsbD_eq
  intro i hi
  rcases Nat.lt_or_ge i 21 with h | h
  · have hmask : (0xFFE00000#32).getLsbD i = false := by
      have : ∀ j : Fin 21, (0xFFE00000#32).getLsbD j.val = false := by decide
      exact this ⟨i, h⟩
    have hpat : (0x10000000#32).getLsbD i = false := by
      have : ∀ j : Fin 21, (0x10000000#32).getLsbD j.val = false := by decide
      exact this ⟨i, h⟩
    rw [BitVec.getLsbD_and, hmask, hpat, Bool.and_false]
  · interval_cases i <;> simp only [BitVec.getLsbD_and, BitVec.getLsbD_append] <;> simp

theorem bcCfg (bs ks : Nat) (var : Variant) : Statement (.bcCfg bs ks var) := by
  intro _
  refine ⟨⟨0x10000000#32, 0xFFE00000#32⟩, rfl, by decide, ?_⟩
  simpa [CommandRow.selects, commandWord, cfgArg] using cfgArg_masked (BitVec.ofNat 8 bs) (BitVec.ofNat 12 ks) var.bit

theorem bcRekey : Statement .bcRekey := fun _ => ⟨_, rfl, by decide, by decide⟩
theorem bcEnc : Statement .bcEnc := fun _ => ⟨_, rfl, by decide, by decide⟩
theorem bcDec : Statement .bcDec := fun _ => ⟨_, rfl, by decide, by decide⟩
theorem csEnc : Statement .csEnc := fun _ => ⟨_, rfl, by decide, by decide⟩
theorem csDec : Statement .csDec := fun _ => ⟨_, rfl, by decide, by decide⟩
theorem hsStart : Statement .hsStart := fun _ => ⟨_, rfl, by decide, by decide⟩
theorem hsRx : Statement .hsRx := fun _ => ⟨_, rfl, by decide, by decide⟩
theorem hsAbort : Statement .hsAbort := fun _ => ⟨_, rfl, by decide, by decide⟩
theorem stepValidateRequest : Statement .stepValidateRequest := fun _ => ⟨rfl, by decide, by decide⟩
theorem stepDecryptSessionKey : Statement .stepDecryptSessionKey := fun _ => ⟨rfl, by decide, by decide⟩
theorem stepDecryptPayload : Statement .stepDecryptPayload := fun _ => ⟨rfl, by decide, by decide⟩
theorem stepVerifySignature : Statement .stepVerifySignature := fun _ => ⟨rfl, by decide, by decide⟩
theorem stepVerifyHash : Statement .stepVerifyHash := fun _ => ⟨rfl, by decide, by decide⟩
theorem stepBuildResponse : Statement .stepBuildResponse := fun _ => ⟨rfl, by decide, by decide⟩

end Sys2Proof.Laws.RowMatch
end

