-- ==== Sys2Proof/Laws/Step.lean ====
section
/-! SUPPORT. What one step can be: the turns of the sequencer, a host access, RESET; cited instead of unfolding `step`. -/

namespace Sys2Proof.Machine

open Sys2Proof

/-- A step serves the oldest event, or is the sequencer's turn. -/
theorem step_cases (s : State) :
    (s.env.inbox = [] ∧ step s = sequencerTurn s) ∨
    (∃ e q, s.env.inbox = e :: q ∧ step s = serveEvent e (s.withInbox q)) := by
  unfold step serveNext
  cases h : s.env.inbox with
  | nil => exact .inl ⟨rfl, rfl⟩
  | cons e q => exact .inr ⟨e, q, rfl, rfl⟩

/-- A word written to `CMD` is a command or is rejected. -/
theorem serveCommand_cases (w : BitVec 32) (s : State) :
    (∃ i, decodeCommand w = .ok i ∧ serveCommand w s = exec i s) ∨
    (∃ e, decodeCommand w = .error e ∧ serveCommand w s = .next s.reject) := by
  cases h : decodeCommand w with
  | ok i => exact .inl ⟨i, rfl, by simp [serveCommand, decode, h]⟩
  | error e => exact .inr ⟨e, rfl, by simp [serveCommand, decode, h]⟩

/-- A word without operands names the one instruction of its opcode. -/
theorem decodeNoArg_ok {i j : Instr} {opc : BitVec 8} {arg : BitVec 24} (h : decodeNoArg i opc arg = .ok j) : j = i := by
  unfold decodeNoArg at h
  split at h
  · exact (Except.ok.inj h).symm
  · exact absurd h (by simp)

/-- `BC.CFG` names only itself. -/
theorem decodeCfg_ok {j : Instr} {opc : BitVec 8} {arg : BitVec 24} (h : decodeCfg opc arg = .ok j) :
    ∃ bs ks var, j = .bcCfg bs ks var := by
  unfold decodeCfg at h
  split at h
  · exact ⟨_, _, _, (Except.ok.inj h).symm⟩
  · exact absurd h (by simp)

/-- The instructions a command word can name. -/
theorem decodeCommand_ok {w : BitVec 32} {i : Instr} (h : decodeCommand w = .ok i) :
    i = .nop ∨ (∃ bs ks var, i = .bcCfg bs ks var) ∨ i = .bcRekey ∨ i = .bcEnc ∨ i = .bcDec ∨ i = .csEnc ∨ i = .csDec ∨
      i = .hsStart ∨ i = .hsRx ∨ i = .hsAbort := by
  simp only [decodeCommand] at h
  iterate 10
    split at h
    · first
        | (obtain ⟨bs, ks, var, rfl⟩ := decodeCfg_ok h; simp)
        | (obtain rfl := decodeNoArg_ok h; simp)
  exact absurd h (by simp)

/-- The turn of the sequencer in each state (42_handshake.md R146, R211). -/
theorem sequencerTurn_eq (s : State) :
    sequencerTurn s =
      match s.hstate with
      | .idle => .next s
      | .awaitRequest => .next s
      | .validateRequest => execStepValidateRequest s
      | .decryptSessionKey => execStepDecryptSessionKey s
      | .decryptPayload => execStepDecryptPayload s
      | .verifySignature => execStepVerifySignature s
      | .verifyHash => execStepVerifyHash s
      | .buildResponse => execStepBuildResponse s
      | .sent => .next s
      | .closed => .next s := by
  unfold sequencerTurn
  cases s.hstate <;> rfl

/-- A write other than of `CMD` either performs the store or is dropped. -/
theorem serveWrite_cases (s : State) (w : HostWrite) :
    (w.inWindow s.hstate = true ∧ w.fits = true ∧ s.serveWrite w = w.store s) ∨
    ((w.inWindow s.hstate = false ∨ w.fits = false) ∧ s.serveWrite w = s.dropWrite) := by
  unfold State.serveWrite
  cases hw : w.inWindow s.hstate <;> cases hf : w.fits <;> simp

/-- Taking the pending events off and putting them back changes nothing. -/
@[simp] theorem State.withInbox_withInbox (s : State) (p q : List Event) : (s.withInbox p).withInbox q = s.withInbox q := rfl

@[simp] theorem State.withInbox_self (s : State) : s.withInbox s.env.inbox = s := rfl

end Sys2Proof.Machine
end

