-- ==== Sys2Proof/Laws/Stream.lean ====
section
/-! SUPPORT. The stream functions of the CS unit entry by entry. -/

namespace Sys2Proof.Machine

open Sys2Proof

/-- Entry `i` of a list XOR-ed with the keystream from block `j` on meets block `j + i` (41_counterstream.md R124, R125). -/
theorem xorFields_getElem? (ks : Nat → Nat) (l : List Block) : ∀ (j i : Nat),
    (xorFields ks j l)[i]? = (l[i]?).map fun b => ⟨b.w, b.v ^^^ (ks (j + i) / 2 ^ (128 - b.w))⟩ := by
  induction l with
  | nil => intro j i; simp [xorFields]
  | cons b l ih =>
    intro j i
    cases i with
    | zero => simp [xorFields, xpart, Nat.shiftRight_eq_div_pow]
    | succ i => simp [xorFields, ih, show j + 1 + i = j + (i + 1) by omega]

/-- A last entry is joined below the entries before it (41_counterstream.md R131). -/
theorem joinFields_append (l : List Block) (b : Block) :
    ∀ a, joinFields a (l ++ [b]) = (((joinFields a l).1 <<< b.w) ||| b.v, (joinFields a l).2 + b.w) := by
  induction l with
  | nil => intro a; simp [joinFields]
  | cons c l ih => intro a; simp [joinFields, ih]

end Sys2Proof.Machine
end

