-- ==== Sys2Proof/Laws/Utf8.lean ====
section
/-! SUPPORT. UTF-8 decoding character by character: what a form at the front decodes to, what bytes that decode begin with,
and what no prefix can mend. -/

namespace Sys2Proof.Machine

open Sys2Proof

/-- A byte built from a natural holds it. -/
theorem toNat_ofNat_byte (n : Nat) (h : n < 256) : (BitVec.ofNat 8 n).toNat = n := by
  simp [BitVec.toNat_ofNat]
  omega

/-- The form of a scalar value at the front decodes to that value (43_external_primitives.md R174). -/
theorem utf8Decode_form_append (c : Nat) (hc : isScalar c) (b : Bytes) :
    utf8Decode (utf8Form c ++ b) = (utf8Decode b).map (c :: ·) := by
  obtain ⟨h1, h2⟩ := hc
  unfold utf8Form utf8Decode
  split
  · rename_i h; simp [utf8Loop, toNat_ofNat_byte c (by omega), utf8Lead, h]
  · split
    · rename_i h h'
      have e1 := toNat_ofNat_byte (0xC0 + c / 64) (by omega)
      have e2 := toNat_ofNat_byte (0x80 + c % 64) (by omega)
      have hl : utf8Lead (0xC0 + c/64) = some (1, 0x80, 0xBF, c/64) := by
        unfold utf8Lead; rw [if_neg (by omega), if_pos (by omega)]; congr 4; omega
      simp only [List.cons_append, List.nil_append, utf8Loop, e1, e2, hl]
      rw [if_pos (by omega)]; simp; congr 1; funext t; simp; omega
    · split
      · rename_i h h' h''
        have e1 := toNat_ofNat_byte (0xE0 + c / 4096) (by omega)
        have e2 := toNat_ofNat_byte (0x80 + c / 64 % 64) (by omega)
        have e3 := toNat_ofNat_byte (0x80 + c % 64) (by omega)
        have hl : ∃ lo hi, utf8Lead (0xE0 + c/4096) = some (2, lo, hi, c/4096) ∧
            lo ≤ 0x80 + c/64%64 ∧ 0x80 + c/64%64 ≤ hi := by
          unfold utf8Lead; rw [if_neg (by omega), if_neg (by omega)]
          by_cases k1 : c / 4096 = 0
          · exact ⟨0xA0, 0xBF, by simp [k1], by omega, by omega⟩
          · rw [if_neg (by omega)]
            by_cases k2 : c / 4096 = 13
            · exact ⟨0x80, 0x9F, by simp [k2], by omega, by omega⟩
            · rw [if_neg (by omega), if_pos (by omega)]
              exact ⟨0x80, 0xBF, by congr 4; omega, by omega, by omega⟩
        obtain ⟨lo, hi, hl, ha, hb⟩ := hl
        simp only [List.cons_append, List.nil_append, utf8Loop, e1, e2, e3, hl]
        rw [if_pos ⟨ha, hb⟩, if_neg (by decide), if_pos (by omega)]; simp; congr 1; funext t; simp; omega
      · rename_i h h' h''
        have e1 := toNat_ofNat_byte (0xF0 + c / 262144) (by omega)
        have e2 := toNat_ofNat_byte (0x80 + c / 4096 % 64) (by omega)
        have e3 := toNat_ofNat_byte (0x80 + c / 64 % 64) (by omega)
        have e4 := toNat_ofNat_byte (0x80 + c % 64) (by omega)
        have hl : ∃ lo hi, utf8Lead (0xF0 + c/262144) = some (3, lo, hi, c/262144) ∧
            lo ≤ 0x80 + c/4096%64 ∧ 0x80 + c/4096%64 ≤ hi := by
          unfold utf8Lead; rw [if_neg (by omega), if_neg (by omega), if_neg (by omega), if_neg (by omega), if_neg (by omega)]
          by_cases k1 : c / 262144 = 0
          · exact ⟨0x90, 0xBF, by simp [k1], by omega, by omega⟩
          · rw [if_neg (by omega)]
            by_cases k2 : c / 262144 = 4
            · exact ⟨0x80, 0x8F, by simp [k2], by omega, by omega⟩
            · rw [if_pos (by omega)]
              exact ⟨0x80, 0xBF, by congr 4; omega, by omega, by omega⟩
        obtain ⟨lo, hi, hl, ha, hb⟩ := hl
        simp only [List.cons_append, List.nil_append, utf8Loop, e1, e2, e3, e4, hl]
        rw [if_pos ⟨ha, hb⟩, if_neg (by decide), if_pos (by omega), if_neg (by decide), if_pos (by omega)]
        simp; congr 1; funext t; simp; omega

/-- A byte of a known value. -/
theorem byte_eq_ofNat (x : Byte) (n : Nat) (h : x.toNat = n) : x = BitVec.ofNat 8 n := by subst h; simp

/-- Bytes that decode begin with the form of a scalar value. -/
theorem exists_form_of_utf8Decode (x : Byte) (b : Bytes) (h : utf8Decode (x :: b) ≠ none) :
    ∃ c b', isScalar c ∧ x :: b = utf8Form c ++ b' := by
  unfold utf8Decode at h
  simp only [utf8Loop] at h
  split at h
  · exact absurd rfl h
  · rename_i c hl
    unfold utf8Lead at hl; repeat' split at hl
    all_goals simp at hl
    obtain ⟨-, -, rfl⟩ := hl
    exact ⟨x.toNat, b, ⟨by omega, by omega⟩, by simp [utf8Form, *]⟩
  · rename_i n lo hi c hl
    cases b with
    | nil => simp [utf8Loop] at h
    | cons y b =>
    simp only [utf8Loop] at h
    split at h
    on_goal 2 => exact absurd rfl h
    rename_i hy
    split at h
    · rename_i hn; subst hn
      unfold utf8Lead at hl; repeat' split at hl
      all_goals simp at hl
      obtain ⟨rfl, rfl, rfl⟩ := hl
      refine ⟨x.toNat % 32 * 64 + y.toNat % 64, b, ⟨by omega, by omega⟩, ?_⟩
      rw [utf8Form, if_neg (by omega), if_pos (by omega)]
      simp; exact ⟨byte_eq_ofNat _ _ (by omega), byte_eq_ofNat _ _ (by omega)⟩
    · cases b with
      | nil => cases n <;> simp [utf8Loop] at h; contradiction
      | cons z b =>
      cases n with
      | zero => contradiction
      | succ n =>
      simp only [utf8Loop] at h
      split at h
      on_goal 2 => exact absurd rfl h
      rename_i hz
      split at h
      · rename_i hn; subst hn
        have hx : x.toNat < 256 := x.isLt
        unfold utf8Lead at hl; repeat' split at hl
        all_goals simp at hl
        all_goals
          obtain ⟨rfl, rfl, rfl⟩ := hl
          refine ⟨(x.toNat % 16 * 64 + y.toNat % 64) * 64 + z.toNat % 64, b, ⟨by omega, by omega⟩, ?_⟩
          rw [utf8Form, if_neg (by omega), if_neg (by omega), if_pos (by omega)]
          simp; exact ⟨byte_eq_ofNat _ _ (by omega), byte_eq_ofNat _ _ (by omega), byte_eq_ofNat _ _ (by omega)⟩
      · cases b with
        | nil => cases n <;> simp [utf8Loop] at h; contradiction
        | cons w b =>
        cases n with
        | zero => contradiction
        | succ n =>
        simp only [utf8Loop] at h
        split at h
        on_goal 2 => exact absurd rfl h
        rename_i hw
        unfold utf8Lead at hl; repeat' split at hl
        all_goals simp at hl
        all_goals
          obtain ⟨rfl, rfl, rfl, rfl⟩ := hl
          refine ⟨((x.toNat % 8 * 64 + y.toNat % 64) * 64 + z.toNat % 64) * 64 + w.toNat % 64, b, ⟨by omega, by omega⟩, ?_⟩
          rw [utf8Form, if_neg (by omega), if_neg (by omega), if_neg (by omega)]
          simp
          exact ⟨byte_eq_ofNat _ _ (by omega), byte_eq_ofNat _ _ (by omega), byte_eq_ofNat _ _ (by omega),
            byte_eq_ofNat _ _ (by omega)⟩

/-- No form is empty. -/
theorem utf8Form_length_pos (c : Nat) : 0 < (utf8Form c).length := by
  unfold utf8Form
  repeat' split
  all_goals simp

/-- The byte after a lead byte of UTF-8 is at most a continuation byte, so no lead byte stands inside a character. -/
theorem utf8Lead_next_le {b need lo hi c : Nat} (h : utf8Lead b = some (need, lo, hi, c)) : hi ≤ 0xBF := by
  unfold utf8Lead at h
  repeat' split at h
  all_goals simp at h; try omega

/-- Bytes that decode from no state of the decoder decode after no prefix either. -/
theorem utf8Loop_append_eq_none (suf : Bytes) (hs : ∀ n lo hi acc, hi ≤ 0xBF → utf8Loop n lo hi acc suf = none) :
    ∀ (a : Bytes) (n lo hi acc : Nat), hi ≤ 0xBF → utf8Loop n lo hi acc (a ++ suf) = none := by
  intro a; induction a with
  | nil => intro n lo hi acc h; exact hs _ _ _ _ h
  | cons x a ih =>
    intro n lo hi acc h
    cases n with
    | zero =>
      simp only [List.cons_append, utf8Loop]
      cases hl : utf8Lead x.toNat with
      | none => rfl
      | some p =>
        obtain ⟨m, l, h', c⟩ := p
        have := utf8Lead_next_le hl
        cases m <;> simp [ih _ _ _ _ this, ih _ _ _ _ (show 0 ≤ 0xBF by decide)]
    | succ n =>
      simp only [List.cons_append, utf8Loop]
      split
      · split
        · simp [ih _ _ _ _ (show 0 ≤ 0xBF by decide)]
        · exact ih _ _ _ _ (by decide)
      · rfl

end Sys2Proof.Machine
end

