-- ==== Sys2Proof/Tests/Slice0.lean ====
section
/-! SUPPORT. Tests of the definitions against the spec's worked examples, and for every obligation with hypotheses a concrete
state and operands that meet them. Expected values come from spec/ (95_test_vectors.md where nothing else is named); the
vectors that depend on `Z` use its proposed default. -/

namespace Sys2Proof.Tests

open Sys2Proof Sys2Proof.Machine

-- One theorem at a time: the kernel evaluations below would else all wait in threads of their own.
set_option Elab.async false

/-! ### Helpers -/

/-- The digest of the empty string as an integer (95_test_vectors.md section 4). -/
def emptyDigest : Nat :=
  0x26cd1d2886857501e3d3b6959d1900f558c53a2c40e9e3114cf9f5f13a12b215a6805c47c1dcd1e05958e24f1682c9976e755a18dc67b5c8c59a3aa2cc739fa6

/-- The environment of the spec's vectors: default `Z`, variant AND, the sample `T1` of `TOD_US`, a draw of 0, and a codec
whose answers are listed. -/
def env : Env :=
  { Env.initial with
    z := Config.zDefault, protoVariant := .standard, todQueue := [0x00060A24181E4000#64], rngQueue := [0],
    codec :=
      { requests := [([0x7B#8, 0x7D#8], some ⟨12, 300, 9⟩), ([0x7B#8], some ⟨12, 300, 8⟩), ([0x7D#8], none)],
        keydata := [([0x7B, 0x7D], some ⟨5, 7, []⟩), ([0x7B], none)],
        payloads := [([0x7B], some ⟨[], 9, 4⟩)],
        canons := [(0, [])],
        responses := [((0, emptyDigest), [0x7B#8, 0x7D#8])] } }

/-- The reset state in that environment. -/
def idle : State := { State.reset with env := env }

/-- The state an instruction leads to. -/
def after (i : Instr) (s : State) : State :=
  match exec i s with
  | .next t => t
  | .fault r => nomatch r
  | .refused _ => s

/-- The state one step leads to. -/
def afterStep (s : State) : State :=
  match step s with
  | .next t => t
  | .fault r => nomatch r
  | .refused _ => s

/-- `BC.INIT bs, ks, var, k` from reset. -/
def keyed (bs ks : Nat) (var : Variant) (k : BitVec 256) : State :=
  after .bcRekey { after (.bcCfg bs ks var) idle with key := k }

/-- `T1 * 2^64`. -/
def n1 : BitVec 128 := 0x00060A24181E40000000000000000000#128

/-- The key `K1`. -/
def k1 : BitVec 256 := 0x1F1E1D1C1B1A191817161514131211100F0E0D0C0B0A09080706050403020100#256

/-- WTA's literal message. -/
def lit : Nat := 0x74206e69345345345345206d6f635453564abc369

/-- A waiting session with both moduli loaded. -/
def waiting : State := { idle with hstate := .awaitRequest, pubN := 7, privN := 11 }

/-- The frame of type `t` around `{}`. -/
def frame (t : Byte) : Bytes := [t, 0x30, 0x30, 0x30, 0x30, 0x30, 0x30, 0x30, 0x32, 0x7B, 0x7D]

/-- A session that received the bytes `b`. -/
def received (b : Bytes) : State :=
  { waiting with hstate := .validateRequest, rxbuf := Memory.ofBytes b, rxlen := b.length }

/-- A session whose key ciphertext is `c` under the exponent 1 and the modulus `2^16`. -/
def recovering (c : Nat) : State := { waiting with hstate := .decryptSessionKey, privD := 1, privN := 65536, rqSk := c }

/-- A session with key 0, nonce `tod` and a payload field of `bits` bits. -/
def decrypting (key tod payload bits : Nat) : State :=
  { waiting with hstate := .decryptPayload, kdKey := key, kdTod := tod, rqPl := payload, rqPlbits := bits }

/-- A session whose signature is the digest integer of the empty string, under the exponent 1 and the modulus `2^512`. -/
def signed (canon : Bytes) : State :=
  { waiting with hstate := .verifySignature, pubE := 1, pubN := 2 ^ 512, sig := emptyDigest, adCanon := canon }

/-- A session whose key structure serialises to the empty string. -/
def hashed (h : Nat) : State := { waiting with hstate := .verifyHash, sigok := true, adHash := h }

/-- A session about to respond, whose codec answers `body`. -/
def responding (body : Bytes) : State :=
  { waiting with
    hstate := .buildResponse, sigok := true, hashok := true,
    env := { env with codec := { env.codec with responses := [((0, emptyDigest), body)] } } }

/-! ### Decoding: a word of every instruction, written out from 30_encoding.md R73 to R75 and R82 -/

theorem test_decode_nop : decode (.command 0b00000000000000000000000000000000#32) = .ok .nop := by decide
/-- `OPC = 00010000`, reserved 000, `var = 1`, `ks = 000001100000`, `bs = 00110000`. -/
theorem test_decode_bcCfg : decode (.command 0b00010000000100000110000000110000#32) = .ok (.bcCfg 48 96 .alternate) := by
  decide
theorem test_decode_bcCfg_spec : decode (.command 0x1000c080#32) = .ok (.bcCfg 128 192 .standard) := by decide
theorem test_decode_bcRekey : decode (.command 0b00010001000000000000000000000000#32) = .ok .bcRekey := by decide
theorem test_decode_bcEnc : decode (.command 0b00010010000000000000000000000000#32) = .ok .bcEnc := by decide
theorem test_decode_bcDec : decode (.command 0b00010011000000000000000000000000#32) = .ok .bcDec := by decide
theorem test_decode_csEnc : decode (.command 0b00100000000000000000000000000000#32) = .ok .csEnc := by decide
theorem test_decode_csDec : decode (.command 0b00100001000000000000000000000000#32) = .ok .csDec := by decide
theorem test_decode_hsStart : decode (.command 0b00110000000000000000000000000000#32) = .ok .hsStart := by decide
theorem test_decode_hsRx : decode (.command 0b00110001000000000000000000000000#32) = .ok .hsRx := by decide
theorem test_decode_hsAbort : decode (.command 0b00111111000000000000000000000000#32) = .ok .hsAbort := by decide
theorem test_decode_stepValidateRequest : decode (.state 0b0010#4) = .ok .stepValidateRequest := by decide
theorem test_decode_stepDecryptSessionKey : decode (.state 0b0011#4) = .ok .stepDecryptSessionKey := by decide
theorem test_decode_stepDecryptPayload : decode (.state 0b0100#4) = .ok .stepDecryptPayload := by decide
theorem test_decode_stepVerifySignature : decode (.state 0b0101#4) = .ok .stepVerifySignature := by decide
theorem test_decode_stepVerifyHash : decode (.state 0b0110#4) = .ok .stepVerifyHash := by decide
theorem test_decode_stepBuildResponse : decode (.state 0b0111#4) = .ok .stepBuildResponse := by decide
theorem test_decode_reserved_opcodes :
    [0x14000000#32, 0x22000000#32, 0x32000000#32, 0xff000000#32].map (fun w => (decode (.command w)).toOption) =
      [none, none, none, none] := by decide
theorem test_decode_reserved_argument : decode (.command 0x10210080#32) = .error (.reservedArgument 0x10#8 0x210080#24) := by
  decide
theorem test_decode_waiting_states :
    [0#4, 1#4, 8#4, 9#4, 15#4].map (fun c => (decode (.state c)).toOption) = [none, none, none, none, none] := by decide
theorem test_decodeTableWord_command : decodeTableWord 32 0x10004020 = some (.bcCfg 32 64 .standard) := by decide
theorem test_decodeTableWord_state : decodeTableWord 8 7 = some .stepBuildResponse := by decide

/-! ### Well-formedness refuses each ill-formed term -/

theorem test_wellFormed_block_size : (Instr.bcCfg 256 64 .standard).wellFormed = false := by decide
theorem test_wellFormed_key_size : (Instr.bcCfg 32 4096 .standard).wellFormed = false := by decide
theorem test_wellFormed_largest : (Instr.bcCfg 255 4095 .alternate).wellFormed = true := by decide

/-! ### Functions, on the spec's examples -/

theorem test_rotations : (rol 16 0x1234 8, ror 16 0x1234 3, rol 8 0x81 8, ror 8 0x81 3) = (0x3412, 0x8246, 0x81, 0x30) := by
  decide
theorem test_round_functions : (fAnd 64 0x0123456789abcdef, fXor 64 0x0123456789abcdef) =
    (0x06c9171725eabcbc, 0x258ef8d89e354363) := by decide
theorem test_feistel_round_xor :
    fround .alternate 64 0x0123456789abcdef 0xfedcba9876543210 0x0f0e0d0c0b0a0908 =
      (0xd45c4f4ce36b787b, 0x0123456789abcdef) := by decide
theorem test_schedule_m1 : (keySchedule Config.zDefault 8 1 0xa5).drop 70 = [0xa7, 0xd4] := by decide +kernel
theorem test_schedule_m5 : ((keySchedule Config.zDefault 8 5 0x0102030405).drop 4).take 5 = [0x01, 0xc8, 0x6c, 0xb4, 0x22] := by
  decide +kernel
/-- BC-Z0Z, a schedule that needs no trust in the default `Z`. -/
theorem test_schedule_zero_z : (keySchedule 0 64 4 0).drop 70 = [0x9d65a76c3d9a5890, 0x5ab325e87b5cda16] := by decide +kernel
theorem test_split : split lit 163 = [⟨128, 0xE840DCD268A68A68A68A40DADEC6A8A6⟩, ⟨35, 0x564ABC369⟩] := by decide +kernel
/-- Leading bits, not low bits (41_counterstream.md R124). -/
theorem test_xpart_leading : xpart 0xcffd9551e0d07ed04b649ed49a39e637 35 0x564abc369 = 0x31b4769e6 := by decide
theorem test_cbOk :
    [[⟨64, 1⟩, ⟨128, 5⟩], [⟨128, 2 ^ 127⟩, ⟨0, 0⟩], [⟨8, 256⟩], [⟨128, 5⟩], [⟨128, 5⟩, ⟨1, 0⟩], []].map cbOk =
      [false, false, false, true, true, true] := by decide
theorem test_modpow : (modpow 4 13 497, modpow 5 0 7, modpow 0 5 7, modpow 10 3 1, modpow 12 3 5) = (445, 1, 0, 0, 3) := by
  decide
theorem test_leBytes : (leBytes 0x7D7B, leBytes 256, leBytes 0) = ([0x7B#8, 0x7D#8], [0x00#8, 0x01#8], []) := by decide
theorem test_utf8 :
    [[0x7B#8, 0x7D#8], [0xC3#8, 0xA9#8], [0xC3#8, 0x28#8], [0xFF#8], [0xC0#8, 0x80#8], [0xED#8, 0xA0#8, 0x80#8]].map utf8Decode =
      [some [0x7B, 0x7D], some [0xE9], none, none, none, none] := by decide
theorem test_frame_refusals :
    [frame 0x39, frame 0x32, frame 0x33, (frame 0x31).dropLast, frame 0x31 ++ [0x78#8], [0x31#8, 0x30#8], []].map
      (fun b => (frameCheck b typeRequest).toOption) = [none, none, none, none, none, none, none] := by decide
theorem test_frame_accepted : frameCheck (frame 0x31) typeRequest = .ok [0x7B#8, 0x7D#8] := by decide
theorem test_lengthDigits : lengthDigits 76 = [0x30, 0x30, 0x30, 0x30, 0x30, 0x30, 0x37, 0x36] := by decide
theorem test_sha3_empty : leInt (sha3_512 []) = emptyDigest := by decide +kernel
theorem test_sha3_abc : (sha3_512 [0x61, 0x62, 0x63]).take 8 = [0xb7, 0x51, 0x85, 0x0b, 0x1a, 0x57, 0x16, 0x8a] := by
  decide +kernel

/-! ### One step of each instruction -/

theorem test_nop : (after .nop { idle with res := .rejected, hstate := .verifyHash }).res = .ok := by decide
theorem test_bcCfg_valid :
    (let t := after (.bcCfg 128 256 .standard) (keyed 16 8 .standard 0xa5); (t.cfg.readBack, t.kvalid, t.res)) =
      (0x010080, false, .ok) := by decide +kernel
theorem test_bcCfg_refuses :
    [(127, 256), (8, 8), (128, 100), (128, 320), (128, 0)].map (fun p => (after (.bcCfg p.1 p.2 .standard) idle).res) =
      [.rejected, .rejected, .rejected, .rejected, .rejected] := by decide
theorem test_bcRekey :
    ((keyed 32 64 .standard 0x1918111009080100).rk.take 8, (keyed 32 64 .standard 0x1918111009080100).rk.drop 71) =
      ([0x0100, 0x0908, 0x1110, 0x1918, 0x71C3, 0xB649, 0x56D5, 0xD070], [0x3B15]) := by decide +kernel
theorem test_bcRekey_range : (keyed 32 64 .standard (2 ^ 64)).res = .error .domainError := by decide +kernel
theorem test_bcEnc : (after .bcEnc { keyed 128 256 .standard k1 with din := 0x74206e69206d6f6f6d69732061207369 }).dout =
    0x8d2b5579afc8a3a03bf72a87efe7b868 := by decide +kernel
theorem test_bcEnc_alternate : (after .bcEnc { keyed 32 64 .alternate 0x1918111009080100 with din := 0x65656877 }).dout =
    0x3338a8e0 := by decide +kernel
theorem test_bcDec : (after .bcDec (keyed 128 256 .standard 0)).dout = 0x6986653d002fc5537b00234aacf1711b := by decide +kernel
theorem test_bcDec_range :
    (after .bcDec { keyed 32 64 .standard 0x1918111009080100 with din := 0x100000000 }).res = .error .domainError := by
  decide +kernel
theorem test_csEnc :
    (let t := after .csEnc { idle with msg := lit }; (t.cblk, t.cbn, t.mlen, t.nonce, t.todLast)) =
      ([⟨128, 0x4D4D43C18F6A14FB200A428D65553D90⟩, ⟨35, 0x31B4769E6⟩], 2, 163, n1, 0x00060A24181E4000) := by decide +kernel
theorem test_csEnc_boundary :
    (after .csEnc { idle with key := k1, msg := 0x100000000000000000000000000000005 }).cblk =
      [⟨128, 0xc2f54f6aba226f5857b6dc5e5d07ec93⟩, ⟨1, 0⟩] := by decide +kernel
theorem test_csDec :
    (let t := after .csDec
      { idle with nonce := n1, cblk := [⟨128, 0x4D4D43C18F6A14FB200A428D65553D90⟩, ⟨35, 0x31B4769E6⟩], cbn := 2 }
     (t.msg, t.mlen, t.res)) = (lit, 163, .ok) := by decide +kernel
theorem test_csDec_bit_length :
    (after .csDec { idle with key := k1, nonce := n1, cblk := [⟨8, 0x3D⟩], cbn := 1 }).res = .error .framingError := by
  decide +kernel
theorem test_hsStart_without_keys : (after .hsStart { idle with pubN := 1 }).res = .rejected := by decide
theorem test_hsStart : (after .hsStart { idle with pubN := 1, privN := 1, rxlen := 9, sigok := true }).hstate = .awaitRequest := by
  decide
theorem test_hsRx : (after .hsRx waiting).hstate = .validateRequest := by decide
theorem test_hsRx_refused : (after .hsRx idle).res = .rejected := by decide
theorem test_hsAbort :
    (let t := after .hsAbort waiting; (t.hstate.code, herrCode t.herr, t.pubN)) = (9, 0, 7) := by decide
theorem test_hsAbort_idle : (after .hsAbort idle).hstate = .idle := by decide
theorem test_stepValidateRequest :
    (let t := after .stepValidateRequest (received (frame 0x31)); (t.rqSk, t.rqPl, t.rqPlbits, t.hstate)) =
      (12, 300, 9, .decryptSessionKey) := by decide +kernel
theorem test_stepValidateRequest_type :
    (let t := after .stepValidateRequest (received (frame 0x39)); (t.hstate.code, herrCode t.herr)) = (9, 2) := by
  decide +kernel
theorem test_stepDecryptSessionKey :
    (let t := after .stepDecryptSessionKey (recovering 0x7D7B); (t.kdKey, t.kdTod, t.hstate)) = (5, 7, .decryptPayload) := by
  decide +kernel
theorem test_stepDecryptSessionKey_text : herrCode (after .stepDecryptSessionKey (recovering 0xFF)).herr = 3 := by
  decide +kernel
/-- The leading 7 bits of `KSB(0)` for key 0 are `0x52`; `0x52 ^ 0x29` is the text of one opening brace. -/
theorem test_stepDecryptPayload :
    (let t := after .stepDecryptPayload (decrypting 0 n1.toNat 0x29 7); (t.msg, t.mlen, t.adHash, t.sig, t.hstate)) =
      (0x7B, 7, 9, 4, .verifySignature) := by decide +kernel
theorem test_stepDecryptPayload_range :
    herrCode (after .stepDecryptPayload (decrypting 0 (2 ^ 128) 0x29 7)).herr = 1 := by decide +kernel
theorem test_stepVerifySignature : (after .stepVerifySignature (signed [])).hstate = .verifyHash := by decide +kernel
theorem test_stepVerifySignature_altered : herrCode (after .stepVerifySignature (signed [0x61])).herr = 5 := by decide +kernel
theorem test_stepVerifyHash : (after .stepVerifyHash (hashed emptyDigest)).hstate = .buildResponse := by decide +kernel
theorem test_stepVerifyHash_mismatch :
    (let t := after .stepVerifyHash (hashed 0); (herrCode t.herr, t.sigok, t.hashok)) = (6, true, false) := by decide +kernel
theorem test_stepBuildResponse :
    (let t := after .stepBuildResponse (responding [0x7B, 0x7D])
     (t.txbuf.slice t.txlen, t.txvalid, t.hstate)) = (frame 0x32, true, .sent) := by decide +kernel

/-! ### Steps and host accesses -/

theorem test_step_runs_placed_command : (afterStep (idle.withFetchWord 32 0x10004020)).cfg = ⟨32, 64, .standard⟩ := by
  decide +kernel
theorem test_step_runs_placed_state : (afterStep (idle.withFetchWord 8 6)).hstate = .closed := by decide +kernel
theorem test_write_refused_in_session : (afterStep (waiting.withInbox [.host (.write (.pubN 9))])).pubN = 7 := by decide +kernel
theorem test_read_hides_key : (afterStep ({ idle with key := 5 }.withInbox [.host (.read 4)])).env.rdata = .number 0 := by
  decide +kernel
theorem test_bcInit_accesses :
    bcInit 128 256 .standard k1 =
      [.write (.cmd 0x10010080#32), .write (.key k1), .write (.cmd 0x11000000#32)] := by decide +kernel

/-- Every instruction leads to a next state, the one `after` names. -/
theorem exec_after (i : Instr) (s : State) : exec i s = .next (after i s) := by cases i <;> rfl

/-! ### Witnesses: for each obligation with hypotheses, a concrete state and operands that meet them, clause by clause -/

theorem witness_DecodeEncodeRoundTrip : (Instr.bcCfg 255 4095 .alternate).wellFormed = true := by decide

theorem witness_EncodeDecodeRoundTrip :
    decode (.command 0x101FFFFF#32) = .ok (.bcCfg 255 4095 .alternate) ∧ decode (.state 7#4) = .ok .stepBuildResponse := by
  decide

theorem witness_RowsSelectWhatDecodes :
    decodeCommand 0x101FFFFF#32 = .ok (.bcCfg 255 4095 .alternate) ∧
    (⟨0x10000000#32, 0xFFE00000#32⟩ : CommandRow) ∈ commandRows ∧
    (⟨0x10000000#32, 0xFFE00000#32⟩ : CommandRow).selects 0x101FFFFF#32 = true ∧ encode .stepVerifyHash = .state 6#4 := by
  decide

theorem witness_ReservedWordsAreRejected :
    (0xFF000000#32).extractLsb' 24 8 ∉ ([0x00, 0x10, 0x11, 0x12, 0x13, 0x20, 0x21, 0x30, 0x31, 0x3F] : List (BitVec 8)) ∧
    (0x10200000#32).extractLsb' 24 8 = 0x10#8 ∧ (0x10200000#32).extractLsb' 21 3 ≠ 0#3 ∧
    (0x3F000001#32).extractLsb' 24 8 ∈ ([0x00, 0x10, 0x11, 0x12, 0x13, 0x20, 0x21, 0x30, 0x31, 0x3F] : List (BitVec 8)) ∧
    (0x3F000001#32).extractLsb' 24 8 ≠ 0x10#8 ∧ (0x3F000001#32).extractLsb' 0 24 ≠ 0#24 ∧
    decode (.command 0#32) = .ok .nop := by decide

theorem witness_StepRunsTheDecodedInstruction :
    (idle.withInbox [.host (.write (.cmd 0x10004020#32))]).env.inbox = .host (.write (.cmd 0x10004020#32)) :: [] ∧
    decode (.command 0x10004020#32) = .ok (.bcCfg 32 64 .standard) ∧
    (idle.withInbox [.host (.write (.cmd 0x12000001#32))]).env.inbox = .host (.write (.cmd 0x12000001#32)) :: [] ∧
    decode (.command 0x12000001#32) = .error (.reservedArgument 0x12#8 1#24) ∧
    (hashed 0).env.inbox = [] ∧ decode (.state (hashed 0).hstate.code) = .ok .stepVerifyHash ∧
    ((hashed 0).withInbox [.sequencer]).env.inbox = .sequencer :: [] ∧
    decode (.state ((hashed 0).withInbox [.sequencer]).hstate.code) = .ok .stepVerifyHash := by decide

theorem witness_StepServesOtherEvents :
    (idle.withInbox [.host (.read 0x1F)]).env.inbox = .host (.read 0x1F) :: [] ∧
    (idle.withInbox [.host (.write (.cbn 3))]).env.inbox = .host (.write (.cbn 3)) :: [] ∧
    (∀ c, HostWrite.cbn 3 ≠ .cmd c) ∧
    idle.env.inbox = [] ∧ idle.hstate = .idle ∧ waiting.env.inbox = [] ∧ waiting.hstate = .awaitRequest ∧
    (waiting.withInbox [.sequencer]).env.inbox = .sequencer :: [] ∧ (waiting.withInbox [.sequencer]).hstate = .awaitRequest ∧
    decode (.state waiting.hstate.code) = .error (.noStep 1#4) ∧
    (idle.withInbox [.reset]).env.inbox = .reset :: [] :=
  ⟨rfl, rfl, fun _ => by simp, rfl, rfl, rfl, rfl, rfl, rfl, by decide, rfl⟩

theorem witness_PlacedInstructionRunsNext :
    (Instr.bcCfg 255 4095 .alternate).wellFormed = true ∧ encode (.bcCfg 255 4095 .alternate) = .command 0x101FFFFF#32 ∧
    Instr.stepBuildResponse.wellFormed = true ∧ encode .stepBuildResponse = .state 7#4 := by decide

/-- The smallest and the largest configuration, and one just outside. -/
theorem witness_CfgCompletes :
    idle.hstate = .idle ∧
    (16 % 2 = 0 ∧ 8 ≤ 16 / 2 ∧ 16 / 2 ≤ 64 ∧ 8 % (16 / 2) = 0 ∧ 1 ≤ 8 / (16 / 2) ∧ 8 / (16 / 2) ≤ 72 ∧ 8 ≤ 256) ∧
    (128 % 2 = 0 ∧ 8 ≤ 128 / 2 ∧ 128 / 2 ≤ 64 ∧ 256 % (128 / 2) = 0 ∧ 1 ≤ 256 / (128 / 2) ∧ 256 / (128 / 2) ≤ 72 ∧
      256 ≤ 256) ∧
    ¬(14 % 2 = 0 ∧ 8 ≤ 14 / 2 ∧ 14 / 2 ≤ 64 ∧ 14 % (14 / 2) = 0 ∧ 1 ≤ 14 / (14 / 2) ∧ 14 / (14 / 2) ≤ 72 ∧ 14 ≤ 256) := by
  decide

theorem witness_RekeyCompletes :
    idle.hstate = .idle ∧ validCfg idle.cfg.bs.toNat idle.cfg.ks.toNat = false ∧
    (let s := { idle with cfg := ⟨32, 64, .standard⟩, key := 0xFFFFFFFFFFFFFFFF }
     s.hstate = .idle ∧ validCfg s.cfg.bs.toNat s.cfg.ks.toNat = true ∧ s.key.toNat < 2 ^ s.cfg.ks.toNat) ∧
    (let s := { idle with cfg := ⟨32, 64, .standard⟩, key := 0x10000000000000000 }
     s.hstate = .idle ∧ validCfg s.cfg.bs.toNat s.cfg.ks.toNat = true ∧ 2 ^ s.cfg.ks.toNat ≤ s.key.toNat) := by decide +kernel

/-- For `BlockEncryptCompletes` and `BlockDecryptCompletes`: the largest block, the smallest value out of range, and no schedule. -/
theorem witness_BlockEncryptCompletes :
    idle.hstate = .idle ∧ idle.kvalid = false ∧
    (let s := { idle with cfg := ⟨32, 64, .standard⟩, kvalid := true, din := 0xFFFFFFFF }
     s.hstate = .idle ∧ s.kvalid = true ∧ s.din.toNat < 2 ^ s.cfg.bs.toNat) ∧
    (let s := { idle with cfg := ⟨32, 64, .standard⟩, kvalid := true, din := 0x100000000 }
     s.hstate = .idle ∧ s.kvalid = true ∧ 2 ^ s.cfg.bs.toNat ≤ s.din.toNat) := by decide +kernel

theorem witness_BlockDecryptCompletes :
    idle.hstate = .idle ∧ idle.kvalid = false ∧
    (let s := { idle with hstate := .closed, cfg := ⟨32, 64, .standard⟩, kvalid := true, din := 0xFFFFFFFF }
     s.hstate = .closed ∧ s.kvalid = true ∧ s.din.toNat < 2 ^ s.cfg.bs.toNat) ∧
    (let s := { idle with hstate := .sent, cfg := ⟨32, 64, .standard⟩, kvalid := true, din := 0x100000000 }
     s.hstate = .sent ∧ s.kvalid = true ∧ 2 ^ s.cfg.bs.toNat ≤ s.din.toNat) := by decide +kernel

theorem keyed_words : ((keyed 16 8 .standard 0xA5).rk.all fun k => Nat.blt k.toNat 256) = true := by decide +kernel

/-- A keyed machine has the invariant. -/
theorem keyed_inv : (keyed 16 8 .standard 0xA5).Inv where
  schedule_length := by decide +kernel
  schedule_words := fun _ k hk => by
    have hdim : (keyed 16 8 .standard 0xA5).cfg.dim = 8 := by decide +kernel
    rw [hdim]
    exact Nat.blt_eq.mp (List.all_eq_true.mp keyed_words k hk)
  schedule_cfg := by decide +kernel
  schedule_cleared := by decide +kernel
  cfg_legal := .inr (by decide +kernel)
  accepted := fun h => absurd h (by decide +kernel)
  signed := by decide +kernel
  frame_valid := by decide +kernel
  silent := by decide +kernel
  error_closed := by decide +kernel
  moduli := by decide +kernel
  request_width := by decide +kernel
  received_fits := by decide +kernel
  sent_fits := by decide +kernel
  rxbuf_wf := by decide +kernel
  txbuf_wf := by decide +kernel

theorem witness_BlockResultsInRange :
    (keyed 16 8 .standard 0xA5).Inv ∧ (keyed 16 8 .standard 0xA5).kvalid = true ∧
    (keyed 16 8 .standard 0xA5).din.toNat < 2 ^ (keyed 16 8 .standard 0xA5).cfg.bs.toNat :=
  ⟨keyed_inv, by decide +kernel, by decide +kernel⟩

theorem keyed_steps : ∃ t, step (keyed 16 8 .standard 0xA5) = .next t := by
  have hstate : (keyed 16 8 .standard 0xA5).hstate = .idle := by decide +kernel
  have hinbox : (keyed 16 8 .standard 0xA5).env.inbox = [] := by decide +kernel
  rcases step_cases (keyed 16 8 .standard 0xA5) with ⟨_, h⟩ | ⟨e, q, h, _⟩
  · rw [h, sequencerTurn_eq, hstate]
    exact ⟨_, rfl⟩
  · rw [hinbox] at h
    exact absurd h (by simp)

theorem witness_StepKeepsInvariant : (keyed 16 8 .standard 0xA5).Inv ∧ ∃ t, step (keyed 16 8 .standard 0xA5) = .next t :=
  ⟨keyed_inv, keyed_steps⟩

/-- A machine configured to 32/64 with a key in range, and the state `BC.REKEY` leads to. -/
def configured : State := { idle with cfg := ⟨32, 64, .standard⟩, key := 0x1918111009080100 }

theorem witness_BlockRoundTrip :
    exec .bcRekey configured = .next (after .bcRekey configured) ∧ (after .bcRekey configured).res = .ok ∧
    (0xFFFFFFFF#128).toNat < 2 ^ (after .bcRekey configured).cfg.bs.toNat :=
  ⟨exec_after _ _, by decide +kernel, by decide +kernel⟩

theorem witness_StaleScheduleStays :
    (keyed 16 8 .standard 0xA5).hstate = .idle ∧
    exec .bcEnc (keyed 16 8 .standard 0xA5) = .next (after .bcEnc (keyed 16 8 .standard 0xA5)) :=
  ⟨by decide +kernel, exec_after _ _⟩

theorem witness_RotationsUndoEachOther : 0 < 8 ∧ 8 ≤ 8 ∧ 255 < 2 ^ 8 ∧ 1 ≤ 64 ∧ 2 ^ 64 - 1 < 2 ^ 64 := by decide

theorem witness_RoundFunctionCorners : 8 ≤ 8 ∧ 255 < 2 ^ 8 ∧ 0 < 2 ^ 8 := by decide

theorem witness_FeistelRoundUndoesItself : 8 ≤ 8 := by decide

/-- `m = 1`, `m = 4`, `m = 72`, each index range met at its ends where it is not empty. -/
theorem witness_ScheduleFollowsTheRecurrence :
    (1 ≤ 1 ∧ 1 ≤ 72 ∧ 0 < 1 ∧ 71 < 72) ∧ (1 ≤ 4 ∧ 4 ≤ 72 ∧ 3 < 4 ∧ 4 ≤ 4 ∧ 4 < 72) ∧ (1 ≤ 72 ∧ 72 ≤ 72 ∧ 71 < 72) := by decide

theorem witness_RoundKeysInRange : validCfg 16 8 = true ∧ validCfg 128 256 = true ∧ validCfg 48 96 = true := by decide

theorem witness_KeyChangesTheSchedule : validCfg 16 8 = true ∧ 0 < 2 ^ 8 ∧ 255 < 2 ^ 8 ∧ 0 ≠ 255 := by decide

/-- One round key: the halves of a block before and after the one round. -/
theorem witness_BlockFunctionsRunTheRounds :
    (∃ l r : Nat → Nat, l 0 = 0x1234 / 2 ^ 8 ∧ r 0 = 0x1234 % 2 ^ 8 ∧
      ∀ i, i < [5#64].length → (l (i + 1), r (i + 1)) = fround .standard 8 (l i) (r i) ([5#64].getD i 0).toNat) ∧
    (∃ l r : Nat → Nat, l [5#64].length = 0x1234 / 2 ^ 8 ∧ r [5#64].length = 0x1234 % 2 ^ 8 ∧
      ∀ i, i < [5#64].length → (r i, l i) = fround .standard 8 (r (i + 1)) (l (i + 1)) ([5#64].getD i 0).toNat) := by
  refine ⟨⟨fun i => if i = 0 then 0x12 else (fround .standard 8 0x12 0x34 5).1,
    fun i => if i = 0 then 0x34 else (fround .standard 8 0x12 0x34 5).2, by decide, by decide, by decide⟩,
    ⟨fun i => if i = 1 then 0x12 else (fround .standard 8 0x34 0x12 5).2,
      fun i => if i = 1 then 0x34 else (fround .standard 8 0x34 0x12 5).1, by decide, by decide, by decide⟩⟩

theorem witness_DecryptInvertsEncrypt : 8 ≤ 8 ∧ 65535 < 2 ^ (2 * 8) ∧ ∀ k ∈ [0#64, 255#64], k.toNat < 2 ^ 8 :=
  ⟨by norm_num, by norm_num, by simp⟩

theorem witness_BitlenMeasures : 1 ≤ 1 := by decide

/-- One full field and one of a single bit. -/
theorem witness_SplitCutsAndRejoins : 2 ^ 129 - 1 < 2 ^ 129 ∧ 0 < 129 / 128 ∧ 129 % 128 ≠ 0 := by decide

theorem witness_FieldXorKeepsWidth :
    2 ^ 128 - 1 < 2 ^ 128 ∧ (1 ≤ 1 ∧ 1 ≤ 128 ∧ 1 < 2 ^ 1) ∧ (1 ≤ 128 ∧ 128 ≤ 128 ∧ 2 ^ 128 - 1 < 2 ^ 128) := by decide

theorem witness_StreamRoundTrip : ∀ i : Nat, (fun _ => 2 ^ 128 - 1) i < 2 ^ 128 := fun _ => by norm_num

/-- A message of two blocks under `T1`. -/
theorem witness_StreamEncryptCompletes :
    (let s := { idle with msg := lit }
     s.hstate = .idle ∧ s.todSample.toNat * 2 ^ 64 + (bitlen s.msg + 127) / 128 ≤ 2 ^ 128 ∧ (bitlen s.msg + 127) / 128 ≤ 2 ^ 64) := by
  decide +kernel

/-- A message of more than `2^64` blocks under the last timestamp runs out of counter values. -/
theorem overflow_witness (k : Nat) (hk : k = 2 ^ 71) :
    ∃ s : State, s.hstate = .idle ∧ 2 ^ 128 < s.todSample.toNat * 2 ^ 64 + (bitlen s.msg + 127) / 128 := by
  refine ⟨{ idle with msg := 2 ^ k, env := { env with todQueue := [BitVec.allOnes 64] } }, rfl, ?_⟩
  have hlen : bitlen (2 ^ k) = k + 1 := by
    simp [bitlen, Nat.log2_two_pow]
  have ht : State.todSample { idle with msg := 2 ^ k, env := { env with todQueue := [BitVec.allOnes 64] } } =
      BitVec.allOnes 64 := by
    have hle : (0#64 ≤ BitVec.allOnes 64) := by decide
    exact if_pos hle
  rw [ht, hlen, hk, BitVec.toNat_allOnes]
  norm_num

theorem witness_StreamEncryptCompletes_overflow :
    ∃ s : State, s.hstate = .idle ∧ 2 ^ 128 < s.todSample.toNat * 2 ^ 64 + (bitlen s.msg + 127) / 128 :=
  overflow_witness (2 ^ 71) rfl

/-- Decryption of the list `l` under key 0 and the nonce `n`. -/
def listed (n : BitVec 128) (l : List Block) : State := { idle with nonce := n, cblk := l, cbn := l.length }

/-- The joined plaintext and width `CS.DEC` computes from a state. -/
def joined (s : State) : Nat × Nat :=
  joinFields (0, 0) (xorFields
    (fun i => encBlock s.env.protoVariant 64 (scheduleCells s.env.z 64 4 s.key.toNat) (s.nonce.toNat + i)) 0 s.blocks)

theorem witness_StreamDecryptCompletes :
    (let s := listed n1 [⟨8, 256⟩]; s.hstate = .idle ∧ cbOk s.blocks = false) ∧
    (let s := listed (BitVec.allOnes 128) [⟨128, 5⟩, ⟨1, 0⟩]
     s.hstate = .idle ∧ cbOk s.blocks = true ∧ 2 ^ 128 < s.nonce.toNat + s.cbn) ∧
    (let s := listed n1 [⟨8, 0xA5⟩]
     s.hstate = .idle ∧ cbOk s.blocks = true ∧ s.nonce.toNat + s.cbn ≤ 2 ^ 128 ∧ bitlen (joined s).1 ≠ (joined s).2) ∧
    (let s := listed n1 [⟨128, 0x4D4D43C18F6A14FB200A428D65553D90⟩, ⟨35, 0x31B4769E6⟩]
     s.hstate = .idle ∧ cbOk s.blocks = true ∧ s.nonce.toNat + s.cbn ≤ 2 ^ 128 ∧ bitlen (joined s).1 = (joined s).2) := by
  decide +kernel

/-- One message bit encrypted; the second state is what `CS.ENC` leaves. -/
theorem witness_CsEncThenDecRestoresMessage :
    exec .csEnc { idle with msg := 1 } = .next (after .csEnc { idle with msg := 1 }) ∧
    (after .csEnc { idle with msg := 1 }).res = .ok ∧ (after .csEnc { idle with msg := 1 }).hstate = .idle :=
  ⟨exec_after _ _, by decide +kernel, by decide +kernel⟩

/-- An instruction of each kind; a step that serves RESET, and one that does not; the last counter value above a nonce. -/
theorem witness_OnlyResetTakesTodLastBack :
    exec .csEnc idle = .next (after .csEnc idle) ∧ exec .nop idle = .next (after .nop idle) ∧ Instr.nop ≠ .csEnc ∧
    (let s := { idle with todLast := 5 }.withInbox [.reset]; step s = .next idle ∧ s.env.inbox.head? = some .reset) ∧
    step idle = .next idle ∧ idle.env.inbox.head? ≠ some .reset ∧ 2 ^ 64 - 1 < 2 ^ 64 ∧
    idle.env.todQueue = 0x00060A24181E4000#64 :: [] ∧ idle.todLast.toNat ≤ (0x00060A24181E4000#64).toNat :=
  ⟨exec_after _ _, exec_after _ _, by decide, ⟨rfl, rfl⟩, rfl, by decide, by decide, rfl, by decide⟩

theorem witness_StartCompletes :
    (let s := { idle with pubN := 1, privN := 1 }; s.hstate = .idle ∧ 1 ≤ s.pubN ∧ 1 ≤ s.privN) ∧
    (let s := { idle with pubN := 1 }; s.hstate = .idle ∧ (s.pubN = 0 ∨ s.privN = 0)) := by decide

theorem witness_RxCompletes : waiting.hstate = .awaitRequest ∧ idle.hstate ≠ .awaitRequest := by decide

theorem witness_AbortCompletes : idle.hstate = .idle ∧ waiting.hstate ≠ .idle := by decide

/-- A good frame; a bad one; a body the codec refuses; a payload field too narrow (`300` in 8 bits). -/
theorem witness_ValidateRequestCompletes :
    (let s := received (frame 0x31)
     s.hstate = .validateRequest ∧ frameCheck (s.rxbuf.slice s.rxlen) 0x31#8 = .ok [0x7B, 0x7D] ∧
      s.env.parseRequest [0x7B, 0x7D] = some ⟨12, 300, 9⟩ ∧ 300 < 2 ^ 9) ∧
    (let s := received (frame 0x39)
     s.hstate = .validateRequest ∧ frameCheck (s.rxbuf.slice s.rxlen) 0x31#8 = .error .framingError) ∧
    (let s := received (frameBuild 0x31 [0x7D])
     s.hstate = .validateRequest ∧ frameCheck (s.rxbuf.slice s.rxlen) 0x31#8 = .ok [0x7D] ∧ s.env.parseRequest [0x7D] = none) ∧
    (let s := received (frameBuild 0x31 [0x7B])
     s.hstate = .validateRequest ∧ frameCheck (s.rxbuf.slice s.rxlen) 0x31#8 = .ok [0x7B] ∧
      s.env.parseRequest [0x7B] = some ⟨12, 300, 8⟩ ∧ 2 ^ 8 ≤ 300) ∧
    (let s := received (frameBuild 0x31 [])
     s.hstate = .validateRequest ∧ frameCheck (s.rxbuf.slice s.rxlen) 0x31#8 = .ok []) ∧
    (let s := received (frameBuild 0x31 [0xFF])
     s.hstate = .validateRequest ∧ frameCheck (s.rxbuf.slice s.rxlen) 0x31#8 = .ok [0xFF] ∧ utf8Decode [0xFF#8] = none) := by
  decide +kernel

theorem witness_DecryptSessionKeyCompletes :
    (let s := recovering 0x7D7B
     s.hstate = .decryptSessionKey ∧ 1 ≤ s.privN ∧
      (utf8Decode (leBytes (s.rqSk ^ s.privD % s.privN))).bind s.env.parseKeydata = some ⟨5, 7, []⟩) ∧
    (let s := recovering 0xFF
     s.hstate = .decryptSessionKey ∧ 1 ≤ s.privN ∧
      (utf8Decode (leBytes (s.rqSk ^ s.privD % s.privN))).bind s.env.parseKeydata = none ∧
      utf8Decode (leBytes (s.rqSk ^ s.privD % s.privN)) = none) ∧
    (let s := recovering 65536
     s.hstate = .decryptSessionKey ∧ 1 ≤ s.privN ∧ s.rqSk ^ s.privD % s.privN = 0 ∧
      utf8Decode (leBytes (s.rqSk ^ s.privD % s.privN)) = some []) := by decide +kernel

/-- The joined plaintext and width step `DECRYPT_PAYLOAD` computes from a state. -/
def joinedPayload (s : State) : Nat × Nat :=
  joinFields (0, 0) (xorFields
    (fun i => encBlock s.env.protoVariant 64 (scheduleCells s.env.z 64 4 s.kdKey) (s.kdTod + i)) 0 (split s.rqPl s.rqPlbits))

/-- `KD_KEY`, `KD_TOD` and the counter in range. -/
def inRange (s : State) : Bool :=
  decide (s.kdKey < 2 ^ 256) && decide (s.kdTod < 2 ^ 128) && decide (s.kdTod + (s.rqPlbits + 127) / 128 ≤ 2 ^ 128)

/-- A payload that decodes; the three ranges left by one each; a bit length lost; bytes that are no text. -/
theorem witness_DecryptPayloadCompletes :
    (let s := decrypting 0 n1.toNat 0x29 7
     s.hstate = .decryptPayload ∧ inRange s = true ∧ bitlen (joinedPayload s).1 = (joinedPayload s).2 ∧
      (utf8Decode (leBytes (joinedPayload s).1)).bind s.env.parsePayload = some ⟨[], 9, 4⟩) ∧
    (inRange (decrypting (2 ^ 256) 0 0 0) = false ∧ inRange (decrypting 0 (2 ^ 128) 0 0) = false ∧
      inRange (decrypting 0 (2 ^ 128 - 1) 0 129) = false ∧ (decrypting 0 0 0 0).hstate = .decryptPayload) ∧
    (let s := decrypting 0 n1.toNat 0x52 7; inRange s = true ∧ bitlen (joinedPayload s).1 ≠ (joinedPayload s).2) ∧
    (let s := decrypting 0 n1.toNat 0x5A 8
     inRange s = true ∧ bitlen (joinedPayload s).1 = (joinedPayload s).2 ∧
      (utf8Decode (leBytes (joinedPayload s).1)).bind s.env.parsePayload = none ∧
      utf8Decode (leBytes (joinedPayload s).1) = none) ∧
    (let s := decrypting 0 0 0 0
     s.hstate = .decryptPayload ∧ inRange s = true ∧ bitlen (joinedPayload s).1 = (joinedPayload s).2 ∧
      utf8Decode (leBytes (joinedPayload s).1) = some [] ∧ s.rqPlbits = 0) := by decide +kernel

theorem witness_VerifySignatureCompletes :
    ((signed []).hstate = .verifySignature ∧ 1 ≤ (signed []).pubN ∧
      (signed []).sig ^ (signed []).pubE % (signed []).pubN = leInt (sha3_512 (signed []).adCanon)) ∧
    ((signed []).hstate = .verifySignature ∧ 1 ≤ (signed []).pubN ∧
      ({ signed [] with sig := 0 }).sig ^ (signed []).pubE % (signed []).pubN ≠ leInt (sha3_512 (signed []).adCanon)) := by
  have h : leInt (sha3_512 (signed []).adCanon) = emptyDigest := test_sha3_empty
  rw [h]
  decide +kernel

theorem witness_VerifyHashCompletes :
    ((hashed emptyDigest).hstate = .verifyHash ∧ leInt (sha3_512 (hashed emptyDigest).kdCanon) = (hashed emptyDigest).adHash) ∧
    ((hashed 0).hstate = .verifyHash ∧ leInt (sha3_512 (hashed 0).kdCanon) ≠ (hashed 0).adHash) := by
  have h : ∀ n, leInt (sha3_512 (hashed n).kdCanon) = emptyDigest := fun _ => test_sha3_empty
  rw [h, h]
  decide +kernel

/-- The body the codec of `responding` answers. -/
theorem responding_body (body : Bytes) :
    (responding body).env.buildResponse (responding body).env.rngRaw
      (leInt (sha3_512 ((responding body).env.respCanon (responding body).env.rngRaw))) = body := by
  have hc : (responding body).env.respCanon (responding body).env.rngRaw = [] := rfl
  rw [hc, test_sha3_empty]
  simp [Env.buildResponse, answer, responding, env, Env.rngRaw]

/-- The longest body a frame holds, and the shortest it does not. -/
theorem witness_BuildResponseCompletes :
    (∃ s : State, s.hstate = .buildResponse ∧
      (s.env.buildResponse s.env.rngRaw (leInt (sha3_512 (s.env.respCanon s.env.rngRaw)))).length ≤ 99999999) ∧
    (∃ s : State, s.hstate = .buildResponse ∧
      99999999 < (s.env.buildResponse s.env.rngRaw (leInt (sha3_512 (s.env.respCanon s.env.rngRaw)))).length) := by
  refine ⟨⟨responding (List.replicate 99999999 0x20), rfl, ?_⟩, ⟨responding (List.replicate 100000000 0x20), rfl, ?_⟩⟩
  · rw [responding_body, List.length_replicate]
  · rw [responding_body, List.length_replicate]; norm_num

theorem witness_AdmissionByState :
    waiting.hstate ≠ .idle ∧ waiting.hstate ≠ .sent ∧ waiting.hstate ≠ .closed ∧ idle.hstate ≠ .awaitRequest := by decide

/-- For `SequencerFollowsTheChain` and `StepsIgnoreTheHost`. -/
theorem witness_SequencerFollowsTheChain :
    decode (.state (received (frame 0x31)).hstate.code) = .ok .stepValidateRequest ∧
    exec .stepValidateRequest (received (frame 0x31)) = .next (after .stepValidateRequest (received (frame 0x31))) ∧
    decode (.state (responding []).hstate.code) = .ok .stepBuildResponse ∧
    exec .stepBuildResponse (responding []) = .next (after .stepBuildResponse (responding [])) :=
  ⟨by decide, exec_after _ _, by decide, exec_after _ _⟩

theorem witness_StepsIgnoreTheHost :
    decode (.state (hashed 0).hstate.code) = .ok .stepVerifyHash ∧
    exec .stepVerifyHash (hashed 0) = .next (after .stepVerifyHash (hashed 0)) := ⟨by decide, exec_after _ _⟩

theorem witness_SessionEndsInSixTurns : (received (frame 0x31)).env.inbox = [] ∧ (received (frame 0x31)).hstate.seq = true := by
  decide

theorem witness_HostCannotDisturbASession :
    (hashed 0).hstate.seq = true ∧ HostAccess.write (.cmd 0x12000000#32) ≠ .write (.cmd 0x3F000000#32) ∧
    serveAccess (.write (.cmd 0x12000000#32)) (hashed 0) = .next (hashed 0).reject := ⟨by decide, by decide, rfl⟩

/-- Each of the three states entered by its step. -/
theorem witness_ResponseNeedsBothVerifications :
    (∃ t, exec .stepVerifySignature (signed []) = .next t ∧ t.hstate ≠ (signed []).hstate ∧ t.hstate = .verifyHash) ∧
    (∃ t, exec .stepVerifyHash (hashed emptyDigest) = .next t ∧ t.hstate ≠ (hashed emptyDigest).hstate ∧
      t.hstate = .buildResponse) ∧
    (∃ t, exec .stepBuildResponse (responding [0x7B, 0x7D]) = .next t ∧ t.hstate ≠ (responding [0x7B, 0x7D]).hstate ∧
      t.hstate = .sent) := by
  have h1 : (after .stepVerifySignature (signed [])).hstate = .verifyHash := test_stepVerifySignature
  have h2 : (after .stepVerifyHash (hashed emptyDigest)).hstate = .buildResponse := test_stepVerifyHash
  have h3 : (after .stepBuildResponse (responding [0x7B, 0x7D])).hstate = .sent :=
    (Prod.mk.inj (Prod.mk.inj test_stepBuildResponse).2).2
  exact ⟨⟨_, exec_after _ _, by rw [h1]; decide, h1⟩, ⟨_, exec_after _ _, by rw [h2]; decide, h2⟩,
    ⟨_, exec_after _ _, by rw [h3]; decide, h3⟩⟩

/-- The states of the windows, the length that just fits and the one that does not, writes the windows refuse. -/
theorem witness_WriteWindows :
    idle.hstate = .idle ∧ waiting.hstate = .awaitRequest ∧ (hashed 0).hstate.seq = true ∧
    100000008 ≤ 100000008 ∧ 100000008 < 100000009 ∧
    (∃ b : Bytes, b.length ≤ 100000008) ∧ (∃ b : Bytes, 100000008 < b.length) ∧
    (∀ c, HostWrite.pubN 9 ≠ .cmd c) ∧ (∀ v, HostWrite.pubN 9 ≠ .rxlen v) ∧ ∀ b, HostWrite.pubN 9 ≠ .rxbuf b :=
  ⟨rfl, rfl, by decide, by decide, by decide, ⟨List.replicate 100000008 0, by rw [List.length_replicate]⟩,
    ⟨List.replicate 100000009 0, by rw [List.length_replicate]; norm_num⟩, fun _ => by simp, fun _ => by simp, fun _ => by simp⟩

theorem witness_FrameCheckAcceptsExactlyFrames :
    typeRequest = 0x31#8 ∧ frameCheck (frame 0x31) typeRequest = .ok [0x7B, 0x7D] ∧
    frameCheck (frame 0x39) typeRequest = .error .framingError ∧ 99999999 ≤ 99999999 ∧ 7 < 8 := by decide

theorem witness_LittleEndianBytes : 1 < (leBytes 256).length := by decide

theorem witness_ModpowIsThePower : 1 ≤ 1 := by decide

/-- A character of two bytes, the two ends of ASCII, each range of a refused byte at its boundary; the shortest and longest
form of each length, both ways. -/
theorem witness_Utf8AcceptsExactlyWellFormed :
    utf8Decode [0xC3#8, 0xA9#8] = some [0xE9] ∧ (∀ x ∈ [0x00#8, 0x7F#8], x.toNat < 0x80) ∧
    0xF5 ≤ (0xF5#8).toNat ∧ (0x9F#8).toNat < 0xA0 ∧ (0x8F#8).toNat < 0x90 ∧ 0xA0 ≤ (0xA0#8).toNat ∧ 0x90 ≤ (0x90#8).toNat ∧
    0xC2 ≤ (0xC2#8).toNat ∧ (0x7F#8).toNat < 0x80 ∧ 0xC0 ≤ (0xC0#8).toNat ∧
    utf8Decode [] ≠ none ∧ 0x80 ≤ (0x80#8).toNat ∧ (0xBF#8).toNat ≤ 0xBF ∧
    (0xE0 ≤ (0xE2#8).toNat ∧ [0x82#8].length < 2) ∧ (0xF0 ≤ (0xF0#8).toNat ∧ [0x90#8, 0x80#8].length < 3) := by decide

theorem test_utf8Form :
    [0x7F, 0x80, 0x7FF, 0x800, 0xD7FF, 0xE000, 0xFFFF, 0x10000, 0x10FFFF].map (fun c => utf8Decode (utf8Form c)) =
      [some [0x7F], some [0x80], some [0x7FF], some [0x800], some [0xD7FF], some [0xE000], some [0xFFFF], some [0x10000],
        some [0x10FFFF]] := by decide
theorem test_utf8Form_euro : utf8Form 0x20AC = [0xE2, 0x82, 0xAC] ∧ utf8Form 0x1F600 = [0xF0, 0x9F, 0x98, 0x80] := by decide

end Sys2Proof.Tests
end

namespace Sys2Proof.Machine

theorem bitlen_zero : bitlen 0 = 0 := rfl

theorem bitlen_of_ne_zero {v : Nat} (hv : v ≠ 0) : bitlen v = v.log2 + 1 := if_neg hv

/-- The powers of two around `v` fix its bit length (00_scope.md R17). At `k = 0` both sides fail, as `v` is not 0. -/
theorem bitlen_eq_iff {v : Nat} (hv : v ≠ 0) (k : Nat) : bitlen v = k ↔ 2 ^ (k - 1) ≤ v ∧ v < 2 ^ k := by
  rw [bitlen_of_ne_zero hv]
  cases k with
  | zero => simp [hv]
  | succ n => rw [Nat.add_right_cancel_iff, Nat.log2_eq_iff hv, Nat.add_sub_cancel]

/-- Settles O26: the characterisation of `Nat.log2`, shifted by one. -/
theorem bitlenMeasures : Obligations.BitlenMeasures :=
  ⟨bitlen_zero, fun _ k hv => bitlen_eq_iff (Nat.one_le_iff_ne_zero.mp hv) k⟩

end Sys2Proof.Machine

namespace Sys2Proof.Machine

open Sys2Proof

/-! ### Configurations -/

/-- The clauses of a valid configuration (00_scope.md R11). -/
theorem validCfg_iff {bs ks : Nat} :
    validCfg bs ks = true ↔ bs % 2 = 0 ∧ 8 ≤ bs / 2 ∧ bs / 2 ≤ 64 ∧ ks % (bs / 2) = 0 ∧ 1 ≤ ks / (bs / 2) ∧
      ks / (bs / 2) ≤ 72 ∧ ks ≤ 256 := by
  simp [validCfg, and_assoc]

/-- The registers of `CFG` hold a valid configuration whole (10_state.md R21). -/
theorem validCfg_ofNat {bs ks : Nat} (h : validCfg bs ks = true) :
    validCfg (BitVec.ofNat 8 bs).toNat (BitVec.ofNat 12 ks).toNat = true := by
  obtain ⟨heven, -, hdim, -, -, -, hks⟩ := validCfg_iff.mp h
  rwa [BitVec.toNat_ofNat, BitVec.toNat_ofNat, Nat.mod_eq_of_lt (by omega), Nat.mod_eq_of_lt (by omega)]

/-- A valid block is two words of `dim` bits. -/
theorem two_mul_dim {c : Cfg} (h : validCfg c.bs.toNat c.ks.toNat = true) : 2 * c.dim = c.bs.toNat := by
  obtain ⟨heven, -⟩ := validCfg_iff.mp h
  exact Nat.mul_div_cancel' (Nat.dvd_of_mod_eq_zero heven)

/-! ### The round engine keeps words of `dim` bits -/

theorem shiftRight_lt {x n : Nat} (hx : x < n) (s : Nat) : x >>> s < n :=
  (Nat.shiftRight_le x s).trans_lt hx

theorem rol_lt {dim x : Nat} (hx : x < 2 ^ dim) (s : Nat) : rol dim x s < 2 ^ dim :=
  Nat.or_lt_two_pow (Nat.mod_lt _ (Nat.two_pow_pos dim)) (shiftRight_lt hx _)

theorem ror_lt {dim x : Nat} (hx : x < 2 ^ dim) (s : Nat) : ror dim x s < 2 ^ dim :=
  Nat.or_lt_two_pow (Nat.mod_lt _ (Nat.two_pow_pos dim)) (shiftRight_lt hx _)

/-- Either round function answers a word for a word (40_blockcipher.md R102 to R104). -/
theorem roundFn_lt (v : Variant) {dim x : Nat} (hx : x < 2 ^ dim) : roundFn v dim x < 2 ^ dim := by
  cases v with
  | standard => exact Nat.xor_lt_two_pow (Nat.and_lt_two_pow _ (rol_lt hx 8)) (rol_lt hx 2)
  | alternate => exact Nat.xor_lt_two_pow (Nat.xor_lt_two_pow (rol_lt hx 1) (rol_lt hx 8)) (rol_lt hx 2)

theorem roundConst_lt (dim : Nat) : roundConst dim < 2 ^ dim :=
  Nat.sub_lt (Nat.two_pow_pos dim) (by decide)

theorem zBit_lt (z : BitVec 62) {dim : Nat} (hdim : 1 ≤ dim) (j : Nat) : zBit z j < 2 ^ dim :=
  calc zBit z j < 2 ^ 1 := (z.getLsbD j).toNat_lt
    _ ≤ 2 ^ dim := Nat.pow_le_pow_right (by decide) hdim

/-! ### The key schedule -/

theorem getD_lt {l : List Nat} {n : Nat} (hl : ∀ k ∈ l, k < n) (hn : 0 < n) (i : Nat) : l.getD i 0 < n := by
  rcases Nat.lt_or_ge i l.length with hi | hi
  · rw [List.getD_eq_getElem l 0 hi]
    exact hl _ (List.getElem_mem hi)
  · rwa [List.getD_eq_default l 0 hi]

/-- One step of the recurrence over words makes a word (40_blockcipher.md R107). -/
theorem ksStep_lt (z : BitVec 62) {dim : Nat} (hdim : 1 ≤ dim) (m i : Nat) {rk : List Nat}
    (hrk : ∀ k ∈ rk, k < 2 ^ dim) : ksStep z dim m i rk < 2 ^ dim := by
  have hget : ∀ j, rk.getD j 0 < 2 ^ dim := getD_lt hrk (Nat.two_pow_pos dim)
  have ht0 : ror dim (rk.getD (i - 1) 0) 3 < 2 ^ dim := ror_lt (hget _) 3
  have ht1 : (if m = 4 then ror dim (rk.getD (i - 1) 0) 3 ^^^ rk.getD (i - 3) 0
      else ror dim (rk.getD (i - 1) 0) 3) < 2 ^ dim := by
    split
    · exact Nat.xor_lt_two_pow ht0 (hget _)
    · exact ht0
  exact Nat.xor_lt_two_pow
    (Nat.xor_lt_two_pow (Nat.xor_lt_two_pow (Nat.xor_lt_two_pow ht1 (ror_lt ht1 1)) (hget _)) (roundConst_lt dim))
    (zBit_lt z hdim _)

theorem mem_ksExtend_lt (z : BitVec 62) {dim : Nat} (hdim : 1 ≤ dim) (m n : Nat) :
    ∀ {rk : List Nat}, (∀ k ∈ rk, k < 2 ^ dim) → ∀ k ∈ ksExtend z dim m n rk, k < 2 ^ dim := by
  induction n with
  | zero => exact id
  | succ n ih =>
    intro rk hrk
    refine ih fun k hk => ?_
    rcases List.mem_append.mp hk with hk | hk
    · exact hrk k hk
    · rw [List.mem_singleton.mp hk]
      exact ksStep_lt z hdim m _ hrk

theorem ksExtend_length (z : BitVec 62) (dim m n : Nat) :
    ∀ rk : List Nat, (ksExtend z dim m n rk).length = rk.length + n := by
  induction n with
  | zero => intro rk; rfl
  | succ n ih =>
    intro rk
    rw [ksExtend, ih, List.length_append, List.length_singleton]
    omega

/-- Every round key is a word, key words and words of the recurrence alike. -/
theorem mem_keySchedule_lt (z : BitVec 62) {dim : Nat} (hdim : 1 ≤ dim) (m key : Nat) :
    ∀ k ∈ keySchedule z dim m key, k < 2 ^ dim := by
  refine mem_ksExtend_lt z hdim m _ fun k hk => ?_
  obtain ⟨i, -, rfl⟩ := List.mem_map.mp hk
  exact Nat.mod_lt _ (Nat.two_pow_pos dim)

/-- The schedule has one key per round (40_blockcipher.md R115). -/
theorem keySchedule_length (z : BitVec 62) (dim key : Nat) {m : Nat} (hm : m ≤ Config.numRounds) :
    (keySchedule z dim m key).length = Config.numRounds := by
  rw [keySchedule, ksExtend_length, ksSeed, List.length_map, List.length_range]
  omega

theorem scheduleCells_length (z : BitVec 62) (dim key : Nat) {m : Nat} (hm : m ≤ Config.numRounds) :
    (scheduleCells z dim m key).length = Config.numRounds := by
  rw [scheduleCells, List.length_map, keySchedule_length z dim key hm]

/-- A cell of 64 bits holds a round key whole (10_state.md R23). -/
theorem scheduleCells_toNat (z : BitVec 62) {dim : Nat} (hdim : 1 ≤ dim) (hmax : dim ≤ 64) (m key : Nat) :
    (scheduleCells z dim m key).map BitVec.toNat = keySchedule z dim m key := by
  rw [scheduleCells, List.map_map]
  refine (List.map_congr_left fun k hk => ?_).trans (List.map_id _)
  exact Nat.mod_eq_of_lt
    ((mem_keySchedule_lt z hdim m key k hk).trans_le (Nat.pow_le_pow_right (by decide) hmax))

theorem mem_scheduleCells_lt (z : BitVec 62) {dim : Nat} (hdim : 1 ≤ dim) (hmax : dim ≤ 64) (m key : Nat) :
    ∀ k ∈ scheduleCells z dim m key, k.toNat < 2 ^ dim := by
  intro k hk
  have hmem : k.toNat ∈ keySchedule z dim m key := by
    rw [← scheduleCells_toNat z hdim hmax]
    exact List.mem_map_of_mem hk
  exact mem_keySchedule_lt z hdim m key _ hmem

/-- Settles O22: the seed is reduced to words, and the recurrence makes words of words. -/
theorem roundKeysInRange : Obligations.RoundKeysInRange := by
  intro z bs ks key hvalid
  obtain ⟨-, hmin, hmax, -⟩ := validCfg_iff.mp hvalid
  have hdim : 1 ≤ bs / 2 := by omega
  exact ⟨mem_keySchedule_lt z hdim _ key, scheduleCells_toNat z hdim hmax _ key⟩

/-! ### The block functions -/

/-- Both halves of a block are words. -/
def HalvesInRange (dim : Nat) (lr : Nat × Nat) : Prop := lr.1 < 2 ^ dim ∧ lr.2 < 2 ^ dim

theorem encRound_inRange (v : Variant) {dim : Nat} {lr : Nat × Nat} {k : Word} (h : HalvesInRange dim lr)
    (hk : k.toNat < 2 ^ dim) : HalvesInRange dim (encRound v dim lr k) :=
  ⟨Nat.xor_lt_two_pow (Nat.xor_lt_two_pow h.2 (roundFn_lt v h.1)) hk, h.1⟩

theorem decRound_inRange (v : Variant) {dim : Nat} {lr : Nat × Nat} {k : Word} (h : HalvesInRange dim lr)
    (hk : k.toNat < 2 ^ dim) : HalvesInRange dim (decRound v dim k lr) :=
  ⟨h.2, Nat.xor_lt_two_pow (Nat.xor_lt_two_pow h.1 (roundFn_lt v h.2)) hk⟩

theorem encRounds_inRange (v : Variant) {dim : Nat} {rk : List Word} :
    (∀ k ∈ rk, k.toNat < 2 ^ dim) → ∀ {lr}, HalvesInRange dim lr →
      HalvesInRange dim (rk.foldl (encRound v dim) lr) := by
  induction rk with
  | nil => exact fun _ _ h => h
  | cons k rk ih =>
    intro hrk lr h
    obtain ⟨hk, hrk⟩ := List.forall_mem_cons.mp hrk
    exact ih hrk (encRound_inRange v h hk)

theorem decRounds_inRange (v : Variant) {dim : Nat} {rk : List Word} {lr : Nat × Nat} (h : HalvesInRange dim lr) :
    (∀ k ∈ rk, k.toNat < 2 ^ dim) → HalvesInRange dim (rk.foldr (decRound v dim) lr) := by
  induction rk with
  | nil => exact fun _ => h
  | cons k rk ih =>
    intro hrk
    obtain ⟨hk, hrk⟩ := List.forall_mem_cons.mp hrk
    exact decRound_inRange v (ih hrk) hk

/-- A block splits into two words (20_memory.md R54). -/
theorem halves_inRange {dim p : Nat} (hp : p < 2 ^ (2 * dim)) : HalvesInRange dim (leftHalf dim p, rightHalf dim p) := by
  refine ⟨?_, Nat.mod_lt _ (Nat.two_pow_pos dim)⟩
  rw [two_mul, Nat.pow_add] at hp
  rw [leftHalf, Nat.shiftRight_eq_div_pow]
  exact Nat.div_lt_of_lt_mul hp

/-- Two words join to a block (20_memory.md R54). -/
theorem joinHalves_lt {dim : Nat} {lr : Nat × Nat} (h : HalvesInRange dim lr) : joinHalves dim lr < 2 ^ (2 * dim) := by
  obtain ⟨hl, hr⟩ := h
  refine Nat.or_lt_two_pow ?_ (hr.trans_le (Nat.pow_le_pow_right (by decide) (by omega)))
  rw [Nat.shiftLeft_eq, two_mul, Nat.pow_add]
  exact Nat.mul_lt_mul_of_pos_right hl (Nat.two_pow_pos dim)

/-- `ENC` stays in blocks, whatever the variant, for any round keys that are words (10_state.md R48 (c)). -/
theorem encBlock_lt (v : Variant) {dim p : Nat} {rk : List Word} (hrk : ∀ k ∈ rk, k.toNat < 2 ^ dim)
    (hp : p < 2 ^ (2 * dim)) : encBlock v dim rk p < 2 ^ (2 * dim) :=
  joinHalves_lt (encRounds_inRange v hrk (halves_inRange hp))

theorem decBlock_lt (v : Variant) {dim q : Nat} {rk : List Word} (hrk : ∀ k ∈ rk, k.toNat < 2 ^ dim)
    (hq : q < 2 ^ (2 * dim)) : decBlock v dim rk q < 2 ^ (2 * dim) :=
  joinHalves_lt (decRounds_inRange v (halves_inRange hq) hrk)

/-- Settles O15: the invariant makes the schedule one of words under a valid configuration. -/
theorem blockResultsInRange : Obligations.BlockResultsInRange := by
  intro s hinv hk hdin
  have hvalid := hinv.schedule_cfg hk
  have hwords := hinv.schedule_words hk
  have hblock := two_mul_dim hvalid
  have hmax : s.cfg.bs.toNat ≤ 128 := by
    obtain ⟨heven, -, hdim, -⟩ := validCfg_iff.mp hvalid
    omega
  rw [← hblock] at hdin ⊢
  exact ⟨encBlock_lt _ hwords hdin, decBlock_lt _ hwords hdin, hblock ▸ hmax⟩

end Sys2Proof.Machine

namespace Sys2Proof.Machine

open Sys2Proof

/-! ### What a step can be -/

/-- What is served in `s`, and the state it leaves; `RESET` apart. -/
inductive Served (s t : State) : Prop
  | instr (i : Instr) (h : exec i s = .next t)
  | waits (h : t = s)
  | rejects (h : t = s.reject)
  | reads (n : BitVec 5) (h : t = s.serveRead n)
  | writes (w : HostWrite) (h : t = s.serveWrite w)

theorem next_inj {u t : State} (h : (.next u : Result) = .next t) : t = u := (Host.Outcome.next.inj h).symm

theorem serveCommand_served {w : BitVec 32} {s t : State} (h : serveCommand w s = .next t) : Served s t := by
  rcases serveCommand_cases w s with ⟨i, -, hi⟩ | ⟨e, -, he⟩
  · exact .instr i (hi ▸ h)
  · exact .rejects (next_inj (he ▸ h))

theorem serveAccess_served {a : HostAccess} {s t : State} (h : serveAccess a s = .next t) : Served s t := by
  cases a with
  | read n => exact .reads n (next_inj h)
  | write w =>
    cases w with
    | cmd w => exact serveCommand_served h
    | _ => exact .writes _ (next_inj h)

theorem sequencerTurn_served {s t : State} (h : sequencerTurn s = .next t) : Served s t := by
  unfold sequencerTurn at h
  split at h
  · exact .instr _ h
  · exact .waits (next_inj h)

/-- One step serves `RESET`, or something else in the state with the event taken off. -/
theorem step_served {s t : State} (h : step s = .next t) :
    (s.env.inbox.head? = some .reset ∧ ∃ q, t = (s.withInbox q).afterReset) ∨
    (s.env.inbox.head? ≠ some .reset ∧ ∃ q, Served (s.withInbox q) t) := by
  rcases step_cases s with ⟨hnil, hs⟩ | ⟨e, q, hcons, hs⟩ <;> rw [hs] at h
  · exact .inr ⟨by simp [hnil], s.env.inbox, sequencerTurn_served h⟩
  · cases e with
    | reset => exact .inl ⟨by simp [hcons], q, next_inj h⟩
    | sequencer => exact .inr ⟨by simp [hcons], q, sequencerTurn_served h⟩
    | host a => exact .inr ⟨by simp [hcons], q, serveAccess_served h⟩

/-! ### What each rule writes where it succeeds -/

theorem bcCfgRule_ok {bs ks : Nat} {var : Variant} {s t : State} (h : bcCfgRule bs ks var s = .ok t) :
    validCfg bs ks = true ∧ t = s.configure ⟨BitVec.ofNat 8 bs, BitVec.ofNat 12 ks, var⟩ := by
  unfold bcCfgRule at h
  split at h
  · exact ⟨‹_›, (Except.ok.inj h).symm⟩
  · cases h

theorem bcRekeyRule_ok {s t : State} (h : bcRekeyRule s = .ok t) :
    validCfg s.cfg.bs.toNat s.cfg.ks.toNat = true ∧ t = s.keyExp := by
  rcases bcRekeyRule_cases s with ⟨hvalid, -, hr⟩ | ⟨-, hr⟩ | ⟨-, -, hr⟩ <;> cases hr.symm.trans h
  exact ⟨hvalid, rfl⟩

theorem blockRule_ok {f : Nat → Nat} {s t : State} (h : blockRule f s = .ok t) :
    t = { s with dout := BitVec.ofNat 128 (f s.din.toNat) } := by
  rcases blockRule_cases f s with ⟨-, -, hr⟩ | ⟨-, hr⟩ | ⟨-, -, hr⟩ <;> cases hr.symm.trans h
  rfl

/-- The state under the protocol's configuration with its schedule: what `CS_INIT` leaves (41_counterstream.md R128). -/
def State.protoKeyed (s : State) : State := { s with cfg := protoCfg s.env.protoVariant }.keyExp

theorem streamDecrypt_ok {l : List Block} {s t : State} (h : streamDecrypt l s = .ok t) :
    ∃ p n, t = { s.protoKeyed with msg := p, mlen := n } := by
  rcases streamDecrypt_cases l s with ⟨p, n, -, -, hr⟩ | ⟨-, hr⟩ | ⟨-, -, hr⟩ <;> cases hr.symm.trans h
  exact ⟨p, n, rfl⟩

theorem csDecRule_ok {s t : State} (h : csDecRule s = .ok t) : ∃ p n, t = { s.protoKeyed with msg := p, mlen := n } := by
  rcases csDecRule_cases s with ⟨-, u, hu, hr⟩ | ⟨-, hr⟩ | ⟨-, e, -, hr⟩ <;> cases hr.symm.trans h
  exact streamDecrypt_ok hu

theorem hsStartRule_ok {s t : State} (h : hsStartRule s = .ok t) :
    (1 ≤ s.pubN ∧ 1 ≤ s.privN) ∧
      t = { s.discardFull with herr := none, sigok := false, hashok := false, hstate := .awaitRequest } := by
  unfold hsStartRule at h
  split at h
  · cases h
  · rename_i hmod
    exact ⟨by omega, (Except.ok.inj h).symm⟩

theorem validateRequestRule_ok {s t : State} (h : validateRequestRule s = .ok t) :
    ∃ r : Request, r.pl < 2 ^ r.plbits ∧
      t = { s with rqSk := r.sk, rqPl := r.pl, rqPlbits := r.plbits, hstate := .decryptSessionKey } := by
  rcases validateRequestRule_cases s with ⟨r, -, hw, hr⟩ | ⟨-, hr⟩ <;> cases hr.symm.trans h
  exact ⟨r, hw, rfl⟩

theorem decryptSessionKeyRule_ok {s t : State} (h : decryptSessionKeyRule s = .ok t) :
    ∃ kd : KeyData, t = { s with kdKey := kd.key, kdTod := kd.tod, kdCanon := kd.canon, hstate := .decryptPayload } := by
  rcases decryptSessionKeyRule_cases s with ⟨kd, -, hr⟩ | ⟨-, hr⟩ <;> cases hr.symm.trans h
  exact ⟨kd, rfl⟩

theorem decryptPayloadRule_ok {s t : State} (h : decryptPayloadRule s = .ok t) :
    ∃ m n, ∃ p : Payload, t = { s.loadPayload.protoKeyed with
      msg := m, mlen := n, adCanon := p.adCanon, adHash := p.adHash, sig := p.sig, hstate := .verifySignature } := by
  rcases decryptPayloadRule_cases s with ⟨u, p, -, -, hu, -, hr⟩ | ⟨e, -, hr⟩ <;> cases hr.symm.trans h
  obtain ⟨m, n, rfl⟩ := streamDecrypt_ok hu
  exact ⟨m, n, p, rfl⟩

theorem verifySignatureRule_ok {s t : State} (h : verifySignatureRule s = .ok t) :
    t = { s with sigok := true, hstate := .verifyHash } := by
  rcases verifySignatureRule_cases s with ⟨-, hr⟩ | ⟨-, hr⟩ <;> cases hr.symm.trans h
  rfl

theorem verifyHashRule_ok {s t : State} (h : verifyHashRule s = .ok t) :
    t = { s with hashok := true, hstate := .buildResponse } := by
  rcases verifyHashRule_cases s with ⟨-, hr⟩ | ⟨-, hr⟩ <;> cases hr.symm.trans h
  rfl

theorem buildResponseRule_ok {k : BitVec 256} {body : Bytes} {s t : State} (h : buildResponseRule k body s = .ok t) :
    body.length ≤ Config.bodyMax ∧ t = { (s.putResponse k body).discardSession with hstate := .sent } := by
  rcases buildResponseRule_cases k body s with ⟨hb, hr⟩ | ⟨-, hr⟩ <;> cases hr.symm.trans h
  exact ⟨hb, rfl⟩

/-! ### What an instruction can answer -/

/-- The states an instruction can lead to from `s`: `s` itself for a step that is not selected, the three ends without
success, and what each instruction writes where it succeeds. The two instructions that draw from a port use up the draw in
an error too (log 3, 4). -/
inductive Answered (s : State) : Instr → State → Prop
  | unselected (i : Instr) : Answered s i s
  | rejected (i : Instr) : Answered s i s.reject
  | commandError (i : Instr) (e : WtError) : Answered s i (s.takeError .command e)
  | stepError (i : Instr) (e : WtError) : Answered s i (s.takeError .sequencer e)
  | nop : Answered s .nop { s with res := .ok }
  | bcCfg {bs ks : Nat} (var : Variant) (hvalid : validCfg bs ks = true) :
      Answered s (.bcCfg bs ks var) { s.configure ⟨BitVec.ofNat 8 bs, BitVec.ofNat 12 ks, var⟩ with res := .ok }
  | bcRekey (hvalid : validCfg s.cfg.bs.toNat s.cfg.ks.toNat = true) : Answered s .bcRekey { s.keyExp with res := .ok }
  | bcEnc : Answered s .bcEnc { s with dout := BitVec.ofNat 128 (s.enc s.din.toNat), res := .ok }
  | bcDec : Answered s .bcDec { s with dout := BitVec.ofNat 128 (s.dec s.din.toNat), res := .ok }
  | csEnc (l : List Block) (n k : Nat) :
      Answered s .csEnc { State.protoKeyed { s.todTaken with todLast := s.todSample, nonce := nonceOf s.todSample } with
        cblk := l, cbn := n, mlen := k, res := .ok }
  | csEncError (e : WtError) : Answered s .csEnc (s.todTaken.takeError .command e)
  | csDec (p n : Nat) : Answered s .csDec { s.protoKeyed with msg := p, mlen := n, res := .ok }
  | hsStart (hmoduli : 1 ≤ s.pubN ∧ 1 ≤ s.privN) :
      Answered s .hsStart { s.discardFull with
        herr := none, sigok := false, hashok := false, hstate := .awaitRequest, res := .ok }
  | hsRx (hstate : s.hstate = .awaitRequest) : Answered s .hsRx { s with hstate := .validateRequest, res := .ok }
  | hsAbortIdle : Answered s .hsAbort { s with res := .ok }
  | hsAbort : Answered s .hsAbort { s.discardFull with hstate := .closed, res := .ok }
  | validateRequest (hstate : s.hstate = .validateRequest) (r : Request) (hwidth : r.pl < 2 ^ r.plbits) :
      Answered s .stepValidateRequest
        { s with rqSk := r.sk, rqPl := r.pl, rqPlbits := r.plbits, hstate := .decryptSessionKey }
  | decryptSessionKey (hstate : s.hstate = .decryptSessionKey) (kd : KeyData) :
      Answered s .stepDecryptSessionKey
        { s with kdKey := kd.key, kdTod := kd.tod, kdCanon := kd.canon, hstate := .decryptPayload }
  | decryptPayload (hstate : s.hstate = .decryptPayload) (m n : Nat) (p : Payload) :
      Answered s .stepDecryptPayload { s.loadPayload.protoKeyed with
        msg := m, mlen := n, adCanon := p.adCanon, adHash := p.adHash, sig := p.sig, hstate := .verifySignature }
  | verifySignature (hstate : s.hstate = .verifySignature) :
      Answered s .stepVerifySignature { s with sigok := true, hstate := .verifyHash }
  | verifyHash (hstate : s.hstate = .verifyHash) :
      Answered s .stepVerifyHash { s with hashok := true, hstate := .buildResponse }
  | buildResponse (hstate : s.hstate = .buildResponse) (k : BitVec 256) (body : Bytes)
      (hbody : body.length ≤ Config.bodyMax) :
      Answered s .stepBuildResponse { (s.rngTaken.putResponse k body).discardSession with hstate := .sent }
  | buildResponseError (e : WtError) : Answered s .stepBuildResponse (s.rngTaken.takeError .sequencer e)

/-- A command that works from `s` itself answers as its rule does. -/
theorem answered_command {i : Instr} {s : State} {r : Except CommandStop State} (b : Bool)
    (hok : ∀ u, r = .ok u → Answered s i { u with res := .ok }) : Answered s i (s.ifAdmitted b (s.finishCommand r)) := by
  rcases ifAdmitted_cases s b (s.finishCommand r) with ⟨-, ha⟩ | ⟨-, ha⟩ <;> rw [ha]
  · rcases finishCommand_cases s r with ⟨u, hu, hf⟩ | ⟨-, hf⟩ | ⟨e, -, hf⟩ <;> rw [hf]
    · exact hok u hu
    · exact .rejected i
    · exact .commandError i e
  · exact .rejected i

/-- A step that works from `b` answers as its rule does. -/
theorem answered_step {i : Instr} {s b : State} {r : Except WtError State} {x : HState}
    (herror : ∀ e, Answered s i (b.takeError .sequencer e)) (hok : s.hstate = x → ∀ u, r = .ok u → Answered s i u) :
    Answered s i (s.ifSelected x (b.finishStep r)) := by
  rcases ifSelected_cases s x (b.finishStep r) with ⟨hx, hs⟩ | ⟨-, hs⟩ <;> rw [hs]
  · rcases finishStep_cases b r with ⟨u, hu, hf⟩ | ⟨e, -, hf⟩ <;> rw [hf]
    · exact hok hx u hu
    · exact herror e
  · exact .unselected i

theorem execCsEnc_answered {s t : State} (h : execCsEnc s = .next t) : Answered s .csEnc t := by
  rw [next_inj h]
  rcases ifAdmitted_cases s s.hstate.unitsFree (s.todTaken.finishCommand (csEncRule s.todSample s.todTaken)) with
    ⟨-, ha⟩ | ⟨-, ha⟩ <;> rw [ha]
  · rcases csEncRule_cases s.todSample s.todTaken with ⟨-, hr⟩ | ⟨-, hr⟩ <;> rw [hr]
    · exact .csEnc _ _ _
    · exact .csEncError _
  · exact .rejected _

/-- Every instruction answers in one of these ways. -/
theorem exec_answered {i : Instr} {s t : State} (h : exec i s = .next t) : Answered s i t := by
  cases i with
  | csEnc => exact execCsEnc_answered h
  | nop => rw [next_inj h]; exact .nop
  | bcCfg bs ks var =>
    rw [next_inj h]
    refine answered_command _ fun u hu => ?_
    obtain ⟨hvalid, rfl⟩ := bcCfgRule_ok hu
    exact .bcCfg var hvalid
  | bcRekey =>
    rw [next_inj h]
    refine answered_command _ fun u hu => ?_
    obtain ⟨hvalid, rfl⟩ := bcRekeyRule_ok hu
    exact .bcRekey hvalid
  | bcEnc =>
    rw [next_inj h]
    exact answered_command _ fun u hu => blockRule_ok hu ▸ .bcEnc
  | bcDec =>
    rw [next_inj h]
    exact answered_command _ fun u hu => blockRule_ok hu ▸ .bcDec
  | csDec =>
    rw [next_inj h]
    refine answered_command _ fun u hu => ?_
    obtain ⟨p, n, rfl⟩ := csDecRule_ok hu
    exact .csDec p n
  | hsStart =>
    rw [next_inj h]
    refine answered_command _ fun u hu => ?_
    obtain ⟨hmoduli, rfl⟩ := hsStartRule_ok hu
    exact .hsStart hmoduli
  | hsRx =>
    rw [next_inj h]
    by_cases hx : s.hstate = .awaitRequest
    · rw [decide_eq_true hx]
      exact .hsRx hx
    · rw [decide_eq_false hx]
      exact .rejected _
  | hsAbort =>
    rw [next_inj h]
    by_cases hx : s.hstate = .idle
    · rw [if_pos hx]
      exact .hsAbortIdle
    · rw [if_neg hx]
      exact .hsAbort
  | stepValidateRequest =>
    rw [next_inj h]
    refine answered_step (.stepError _) fun hx u hu => ?_
    obtain ⟨r, hwidth, rfl⟩ := validateRequestRule_ok hu
    exact .validateRequest hx r hwidth
  | stepDecryptSessionKey =>
    rw [next_inj h]
    refine answered_step (.stepError _) fun hx u hu => ?_
    obtain ⟨kd, rfl⟩ := decryptSessionKeyRule_ok hu
    exact .decryptSessionKey hx kd
  | stepDecryptPayload =>
    rw [next_inj h]
    refine answered_step (.stepError _) fun hx u hu => ?_
    obtain ⟨m, n, p, rfl⟩ := decryptPayloadRule_ok hu
    exact .decryptPayload hx m n p
  | stepVerifySignature =>
    rw [next_inj h]
    exact answered_step (.stepError _) fun hx u hu => verifySignatureRule_ok hu ▸ .verifySignature hx
  | stepVerifyHash =>
    rw [next_inj h]
    exact answered_step (.stepError _) fun hx u hu => verifyHashRule_ok hu ▸ .verifyHash hx
  | stepBuildResponse =>
    rw [next_inj h]
    refine answered_step .buildResponseError fun hx u hu => ?_
    obtain ⟨hbody, rfl⟩ := buildResponseRule_ok hu
    exact .buildResponse hx _ _ hbody

/-! ### Time never goes back -/

/-- The one law of port `TOD_US` (43_external_primitives.md R181). -/
theorem todLast_le_todSample (s : State) : s.todLast.toNat ≤ s.todSample.toNat := by
  unfold State.todSample
  split
  · exact BitVec.le_def.mp ‹_›
  · exact le_rfl

/-- An answer leaves `TOD_LAST` or, from `CS.ENC`, stores the sample taken (10_state.md R44). -/
theorem Answered.todLast {i : Instr} {s t : State} (h : Answered s i t) :
    t.todLast = s.todLast ∨ (i = .csEnc ∧ t.todLast = s.todSample) := by
  cases h with
  | csEnc l n k => exact .inr ⟨rfl, rfl⟩
  | _ => exact .inl rfl

theorem exec_todLast {i : Instr} {s t : State} (hi : i ≠ .csEnc) (h : exec i s = .next t) : t.todLast = s.todLast :=
  (exec_answered h).todLast.resolve_right fun hc => hi hc.1

theorem exec_todLast_le {i : Instr} {s t : State} (h : exec i s = .next t) : s.todLast.toNat ≤ t.todLast.toNat := by
  rcases (exec_answered h).todLast with ht | ⟨-, ht⟩ <;> rw [ht]
  exact todLast_le_todSample s

/-- No host write reaches `TOD_LAST` (10_state.md R44). -/
theorem serveWrite_todLast (s : State) (w : HostWrite) : (s.serveWrite w).todLast = s.todLast := by
  rcases serveWrite_cases s w with ⟨-, -, hw⟩ | ⟨-, hw⟩ <;> rw [hw]
  · cases w <;> rfl
  · rfl

theorem Served.todLast_le {s t : State} (h : Served s t) : s.todLast.toNat ≤ t.todLast.toNat := by
  cases h with
  | instr i h => exact exec_todLast_le h
  | waits h => rw [h]
  | rejects h => rw [h, State.reject_todLast]
  | reads n h => rw [h, State.serveRead_todLast]
  | writes w h => rw [h, serveWrite_todLast]

/-- A queued sample the law admits is the one delivered. -/
theorem todSample_of_queue {s : State} {x : BitVec 64} {q : List (BitVec 64)} (hq : s.env.todQueue = x :: q)
    (hx : s.todLast.toNat ≤ x.toNat) : s.todSample = x := by
  have hraw : s.env.todRaw = x := by rw [Env.todRaw, hq]
  rw [State.todSample, hraw]
  exact if_pos (BitVec.le_def.mpr hx)

/-- The timestamp stands in the upper half of the nonce (41_counterstream.md R126). -/
theorem nonceOf_toNat (t : BitVec 64) : (nonceOf t).toNat = t.toNat * 2 ^ 64 := by
  rw [nonceOf, BitVec.toNat_append, Nat.shiftLeft_eq]
  exact Nat.or_zero _

/-- Settles O33: `CS.ENC` alone writes `TOD_LAST`, with a sample the port's law keeps from going back. -/
theorem onlyResetTakesTodLastBack : Obligations.OnlyResetTakesTodLastBack := by
  refine ⟨fun i s t h => ⟨exec_todLast_le h, fun hi => exec_todLast hi h⟩, fun s t h => ?_, todLast_le_todSample,
    fun s x q => todSample_of_queue, fun x => ⟨nonceOf_toNat x, fun i hi => ?_⟩⟩
  · rcases step_served h with ⟨hreset, q, rfl⟩ | ⟨hreset, q, hserved⟩
    · exact ⟨fun _ => rfl, absurd hreset⟩
    · exact ⟨fun h => absurd h hreset, fun _ => hserved.todLast_le⟩
  · have hx := x.isLt
    rw [nonceOf_toNat]
    omega

/-! ### The reset state -/

/-- Settles O52: each register of the reset state is written out in it; a buffer with no byte listed reads 0. -/
theorem resetTable : Obligations.ResetTable := by
  have hrk : State.reset.rk.length = 72 ∧ ∀ k ∈ State.reset.rk, k = 0 :=
    ⟨List.length_replicate, fun _ => List.eq_of_mem_replicate⟩
  have hbuffers : (∀ a, State.reset.rxbuf.read a = 0) ∧ ∀ a, State.reset.txbuf.read a = 0 :=
    ⟨Memory.read_nil, Memory.read_nil⟩
  simp only [Obligations.ResetTable, hrk, hbuffers]
  simp [State.reset]

/-- Settles O51: nothing is keyed, no session runs and no frame stands in the reset state. -/
theorem resetHasInvariant : Obligations.ResetHasInvariant := fun _ =>
  { schedule_length := List.length_replicate
    schedule_words := nofun
    schedule_cfg := nofun
    schedule_cleared := fun _ => rfl
    cfg_legal := .inl rfl
    accepted := nofun
    signed := nofun
    frame_valid := ⟨nofun, nofun⟩
    silent := fun _ => ⟨rfl, rfl, rfl⟩
    error_closed := fun h => absurd rfl h
    moduli := nofun
    request_width := Nat.two_pow_pos 0
    received_fits := Nat.zero_le _
    sent_fits := Nat.zero_le _
    rxbuf_wf := rfl
    txbuf_wf := rfl }

/-! ### The invariant -/

section Invariant

variable {s : State}

/-! What writes only registers the invariant does not name keeps it, field by field. -/

theorem State.Inv.withRes (h : s.Inv) (r : CmdResult) : State.Inv { s with res := r } := { h with }

theorem State.Inv.reject (h : s.Inv) : s.reject.Inv := { h with }

theorem State.Inv.dropWrite (h : s.Inv) : s.dropWrite.Inv := { h with }

theorem State.Inv.withEnv (h : s.Inv) (e : Env) : State.Inv { s with env := e } := { h with }

theorem State.Inv.todTaken (h : s.Inv) : s.todTaken.Inv := h.withEnv _

theorem State.Inv.rngTaken (h : s.Inv) : s.rngTaken.Inv := h.withEnv _

theorem State.Inv.loadPayload (h : s.Inv) : s.loadPayload.Inv := { h with }

/-! One lemma for each group of writes to registers the invariant names. -/

theorem State.Inv.configure (h : s.Inv) (var : Variant) {bs ks : Nat} (hvalid : validCfg bs ks = true) :
    (s.configure ⟨BitVec.ofNat 8 bs, BitVec.ofNat 12 ks, var⟩).Inv :=
  { h with
    schedule_length := List.length_replicate
    schedule_words := nofun
    schedule_cfg := nofun
    schedule_cleared := fun _ => rfl
    cfg_legal := .inr (validCfg_ofNat hvalid) }

/-- A schedule expanded under a valid configuration is 72 words (10_state.md R48 (a), (b)). -/
theorem State.Inv.keyExp (h : s.Inv) (hc : validCfg s.cfg.bs.toNat s.cfg.ks.toNat = true) : s.keyExp.Inv := by
  obtain ⟨-, hmin, hmax, -, -, hm, -⟩ := validCfg_iff.mp hc
  have hdim : 1 ≤ s.cfg.dim := Nat.le_trans (by decide) hmin
  exact
    { h with
      schedule_length := scheduleCells_length _ _ _ hm
      schedule_words := fun _ => mem_scheduleCells_lt _ hdim hmax _ _
      schedule_cfg := fun _ => hc
      schedule_cleared := nofun }

/-- The protocol's configuration is valid (00_scope.md R9). -/
theorem validCfg_protoCfg (v : Variant) : validCfg (protoCfg v).bs.toNat (protoCfg v).ks.toNat = true :=
  (by decide : validCfg 128 256 = true)

/-- Cells of 64 bits are words of the protocol's configuration, whatever was in them. -/
theorem State.Inv.protoKeyed (h : s.Inv) : s.protoKeyed.Inv :=
  have hcfg : State.Inv { s with cfg := protoCfg s.env.protoVariant } :=
    { h with
      schedule_words := fun _ k _ => (protoCfg_dim _).symm ▸ k.isLt
      schedule_cfg := fun _ => validCfg_protoCfg _
      cfg_legal := .inr (validCfg_protoCfg _) }
  hcfg.keyExp (validCfg_protoCfg _)

theorem State.Inv.discardSession (h : s.Inv) : s.discardSession.Inv :=
  { h with
    schedule_length := List.length_replicate
    schedule_words := nofun
    schedule_cfg := nofun
    schedule_cleared := fun _ => rfl
    request_width := Nat.two_pow_pos 0
    received_fits := Nat.zero_le _
    rxbuf_wf := rfl }

/-- A closed session has no output left, and `HERR` may record why (42_handshake.md R160, 60_exceptions.md R197). -/
theorem State.Inv.close (h : s.Inv) (e : Option WtError) :
    State.Inv { s.discardFull with herr := e, hstate := .closed } :=
  { h.discardSession with
    accepted := nofun
    signed := fun hs => h.signed (hs.imp_left nofun)
    frame_valid := ⟨nofun, nofun⟩
    silent := fun _ => ⟨rfl, rfl, rfl⟩
    error_closed := fun _ => rfl
    moduli := nofun
    sent_fits := Nat.zero_le _
    txbuf_wf := rfl }

/-- A new session starts with nothing accepted, no output, and both moduli loaded (42_handshake.md R141). -/
theorem State.Inv.start (h : s.Inv) (hmoduli : 1 ≤ s.pubN ∧ 1 ≤ s.privN) :
    State.Inv { s.discardFull with herr := none, sigok := false, hashok := false, hstate := .awaitRequest } :=
  { h.discardSession with
    accepted := nofun
    signed := nofun
    frame_valid := ⟨nofun, nofun⟩
    silent := fun _ => ⟨rfl, rfl, rfl⟩
    error_closed := fun hne => absurd rfl hne
    moduli := fun _ => hmoduli
    sent_fits := Nat.zero_le _
    txbuf_wf := rfl }

theorem HState.inSession_of_eq {x y : HState} (h : x = y) (hy : y.inSession = true) : x.inSession = true := h ▸ hy

/-- Within a session no error stands (10_state.md R32). -/
theorem State.Inv.herr_of_inSession (h : s.Inv) (hs : s.hstate.inSession = true) : s.herr = none := by
  by_contra hne
  rw [h.error_closed hne] at hs
  cases hs

theorem HState.ne_sent_of_inSession {x : HState} (hx : x.inSession = true) : x ≠ .sent := by
  rintro rfl
  cases hx

/-- The chain goes on within the session where the flags its next state stands for are set (42_handshake.md R156, R162). -/
theorem State.Inv.advance (h : s.Inv) {x : HState} (hs : s.hstate.inSession = true) (hx : x.inSession = true)
    (hsigned : x = .verifyHash → s.sigok = true) (haccepted : x = .buildResponse → s.accepted) :
    State.Inv { s with hstate := x } :=
  have hsent : x ≠ .sent := HState.ne_sent_of_inSession hx
  { h with
    accepted := fun hb => haccepted (hb.resolve_right hsent)
    signed := fun hv => hv.elim hsigned fun hhash => h.signed (.inr hhash)
    frame_valid :=
      ⟨fun htx => absurd (h.frame_valid.mp htx) (HState.ne_sent_of_inSession hs), fun hx => absurd hx hsent⟩
    silent := fun _ => h.silent (HState.ne_sent_of_inSession hs)
    error_closed := fun hne => absurd (h.herr_of_inSession hs) hne
    moduli := fun _ => h.moduli hs }

/-- The request stored is narrow enough for its width (10_state.md R35). -/
theorem State.Inv.putRequest (h : s.Inv) (r : Request) (hwidth : r.pl < 2 ^ r.plbits) :
    State.Inv { s with rqSk := r.sk, rqPl := r.pl, rqPlbits := r.plbits } :=
  { h with request_width := hwidth }

theorem State.Inv.setSigok (h : s.Inv) : State.Inv { s with sigok := true } :=
  { h with
    accepted := fun hb => ⟨rfl, (h.accepted hb).2⟩
    signed := fun _ => rfl }

theorem State.Inv.setHashok (h : s.Inv) (hsig : s.sigok = true) : State.Inv { s with hashok := true } :=
  { h with
    accepted := fun _ => ⟨hsig, rfl⟩
    signed := fun _ => hsig }

/-- The response goes out of an accepted session, in a frame that fits its buffer (42_handshake.md R157). -/
theorem State.Inv.send (h : s.Inv) (hs : s.hstate = .buildResponse) (k : BitVec 256) {body : Bytes}
    (hbody : body.length ≤ Config.bodyMax) :
    State.Inv { (s.putResponse k body).discardSession with hstate := .sent } :=
  have hfits : 9 + body.length ≤ Config.frameMax := by
    simp only [Config.bodyMax] at hbody
    simp only [Config.frameMax]
    omega
  { h.discardSession with
    accepted := fun _ => h.accepted (.inl hs)
    signed := fun _ => h.signed (.inr (h.accepted (.inl hs)).2)
    frame_valid := ⟨fun _ => rfl, fun _ => rfl⟩
    silent := fun hne => absurd rfl hne
    error_closed := fun hne => absurd (h.herr_of_inSession (HState.inSession_of_eq hs rfl)) hne
    moduli := nofun
    sent_fits := hfits
    txbuf_wf := Memory.wf_ofBytes _ (by rwa [frameBuild_length]) }

/-! ### Every step keeps the invariant -/

theorem Answered.inv {i : Instr} {t : State} (hinv : s.Inv) (h : Answered s i t) : t.Inv := by
  cases h with
  | unselected => exact hinv
  | rejected => exact hinv.reject
  | commandError i e => exact hinv.withRes _
  | stepError i e => exact hinv.close _
  | nop => exact hinv.withRes _
  | bcCfg var hvalid => exact (hinv.configure var hvalid).withRes _
  | bcRekey hvalid => exact (hinv.keyExp hvalid).withRes _
  | bcEnc => exact { hinv with }
  | bcDec => exact { hinv with }
  | csEnc l n k =>
    have hport : State.Inv { s.todTaken with todLast := s.todSample, nonce := nonceOf s.todSample } := { hinv with }
    exact { hport.protoKeyed with }
  | csEncError e => exact hinv.todTaken.withRes _
  | csDec p n => exact { hinv.protoKeyed with }
  | hsStart hmoduli => exact (hinv.start hmoduli).withRes _
  | hsRx hs =>
    have hnext : State.Inv { s with hstate := .validateRequest } :=
      hinv.advance (HState.inSession_of_eq hs rfl) rfl nofun nofun
    exact hnext.withRes _
  | hsAbortIdle => exact hinv.withRes _
  | hsAbort => exact (hinv.close s.herr).withRes _
  | validateRequest hs r hwidth => exact (hinv.putRequest r hwidth).advance (HState.inSession_of_eq hs rfl) rfl nofun nofun
  | decryptSessionKey hs kd =>
    have hkd : State.Inv { s with kdKey := kd.key, kdTod := kd.tod, kdCanon := kd.canon } := { hinv with }
    exact hkd.advance (HState.inSession_of_eq hs rfl) rfl nofun nofun
  | decryptPayload hs m n p =>
    have hp : State.Inv { s.loadPayload.protoKeyed with
        msg := m, mlen := n, adCanon := p.adCanon, adHash := p.adHash, sig := p.sig } :=
      { hinv.loadPayload.protoKeyed with }
    exact hp.advance (HState.inSession_of_eq hs rfl) rfl nofun nofun
  | verifySignature hs => exact hinv.setSigok.advance (HState.inSession_of_eq hs rfl) rfl (fun _ => rfl) nofun
  | verifyHash hs =>
    have hsig := hinv.signed (.inl hs)
    exact (hinv.setHashok hsig).advance (HState.inSession_of_eq hs rfl) rfl nofun fun _ => ⟨hsig, rfl⟩
  | buildResponse hs k body hbody => exact hinv.rngTaken.send hs k hbody
  | buildResponseError e => exact hinv.rngTaken.close _

/-- The host owns the units between sessions only (30_encoding.md R79). -/
theorem HState.not_inSession_of_unitsFree {x : HState} (hx : x.unitsFree = true) : x.inSession ≠ true := by
  revert hx
  cases x <;> decide

/-- A host write inside its window keeps the invariant: a modulus is written between sessions only, a frame that is too long
not at all (30_encoding.md R81; log 13). -/
theorem State.Inv.store (h : s.Inv) {w : HostWrite} (hwindow : w.inWindow s.hstate = true) (hfits : w.fits = true) :
    (w.store s).Inv := by
  cases w with
  | pubN v => exact { h with moduli := fun hs => absurd hs (HState.not_inSession_of_unitsFree hwindow) }
  | privN v => exact { h with moduli := fun hs => absurd hs (HState.not_inSession_of_unitsFree hwindow) }
  | rxlen v => exact { h with received_fits := of_decide_eq_true hfits }
  | rxbuf b => exact { h with rxbuf_wf := Memory.wf_ofBytes b (of_decide_eq_true hfits) }
  | _ => exact { h with }

theorem State.Inv.serveWrite (h : s.Inv) (w : HostWrite) : (s.serveWrite w).Inv := by
  rcases serveWrite_cases s w with ⟨hwindow, hfits, hw⟩ | ⟨-, hw⟩ <;> rw [hw]
  · exact h.store hwindow hfits
  · exact h.dropWrite

theorem Served.inv {t : State} (hinv : s.Inv) (h : Served s t) : t.Inv := by
  cases h with
  | instr i h => exact (exec_answered h).inv hinv
  | waits h => exact h ▸ hinv
  | rejects h => exact h ▸ hinv.reject
  | reads n h => exact h ▸ hinv.withEnv _
  | writes w h => exact h ▸ hinv.serveWrite w

end Invariant

/-- Settles O50: what each event leaves has the invariant, and `RESET` leads to a state that has it. -/
theorem stepKeepsInvariant : Obligations.StepKeepsInvariant := by
  intro s t hinv h
  rcases step_served h with ⟨-, q, rfl⟩ | ⟨-, q, hserved⟩
  · exact resetHasInvariant _
  · exact hserved.inv (hinv.withEnv _)

end Sys2Proof.Machine

namespace Sys2Proof.Machine

open Sys2Proof

/-! ### The events apart from commands -/

theorem step_of_inbox_nil {s : State} (h : s.env.inbox = []) : step s = sequencerTurn s := by
  rcases step_cases s with ⟨-, hs⟩ | ⟨e, q, hcons, -⟩
  · exact hs
  · rw [h] at hcons
    cases hcons

theorem step_of_inbox_cons {s : State} {e : Event} {q : List Event} (h : s.env.inbox = e :: q) :
    step s = serveEvent e (s.withInbox q) := by
  rcases step_cases s with ⟨hnil, -⟩ | ⟨e', q', hcons, hs⟩
  · rw [h] at hnil
    cases hnil
  · rw [h] at hcons
    cases hcons
    exact hs

/-- The states in which WTCORE waits for the host (60_exceptions.md R211). -/
def HState.Waiting (x : HState) : Prop := x = .idle ∨ x = .awaitRequest ∨ x = .sent ∨ x = .closed

/-- The waiting states are those whose code selects no step (30_encoding.md R82). -/
theorem decode_hstate_error_iff (x : HState) (e : DecodeError) :
    decode (.state x.code) = .error e ↔ x.Waiting ∧ e = .noStep x.code := by
  cases x with
  | idle | awaitRequest | sent | closed => simp [HState.Waiting, decode, decodeState, HState.code, eq_comm]
  | _ => simp [HState.Waiting, decode, decodeState, HState.code]

theorem sequencerTurn_of_waiting {s : State} (h : s.hstate.Waiting) : sequencerTurn s = .next s := by
  have hnoStep := (decode_hstate_error_iff s.hstate _).mpr ⟨h, rfl⟩
  rw [sequencerTurn, hnoStep]

/-- `CMD` is the one register whose write is not a mere store (30_encoding.md R80). -/
theorem serveAccess_write_of_ne_cmd {w : HostWrite} (hw : ∀ c, w ≠ .cmd c) (s : State) :
    serveAccess (.write w) s = .next (s.serveWrite w) := by
  cases w with
  | cmd c => exact absurd rfl (hw c)
  | _ => rfl

/-- The inbox is no register: what a host reads does not depend on it (log 5, 6). -/
theorem State.withInbox_readReg (s : State) (q : List Event) (n : BitVec 5) :
    (s.withInbox q).readReg n = s.readReg n := rfl

/-- Settles O7: each clause names the event served, and in a waiting state `decode` answers with no step. -/
theorem stepServesOtherEvents : Obligations.StepServesOtherEvents := by
  intro s q
  refine ⟨fun n hread => ?_, fun w hwrite hw => ?_, fun hnil hwait => ?_, fun hturn hwait => ?_,
    decode_hstate_error_iff s.hstate, fun hreset => ?_⟩
  · rw [step_of_inbox_cons hread, ← s.withInbox_readReg q n]
    rfl
  · rw [step_of_inbox_cons hwrite]
    exact serveAccess_write_of_ne_cmd hw _
  · rw [step_of_inbox_nil hnil]
    exact sequencerTurn_of_waiting hwait
  · rw [step_of_inbox_cons hturn]
    exact sequencerTurn_of_waiting (s := s.withInbox q) hwait
  · exact step_of_inbox_cons hreset

end Sys2Proof.Machine

namespace Sys2Proof.Machine

open Sys2Proof

/-! ### The fields of a command word -/

theorem opcField_commandWord (opc : BitVec 8) (arg : BitVec 24) : opcField (commandWord opc arg) = opc := by
  rw [opcField, commandWord, BitVec.extractLsb'_append_eq_of_le (by decide)]
  exact BitVec.extractLsb'_eq_self

theorem argField_commandWord (opc : BitVec 8) (arg : BitVec 24) : argField (commandWord opc arg) = arg := by
  rw [argField, commandWord, BitVec.extractLsb'_append_eq_of_add_le (by decide)]
  exact BitVec.extractLsb'_eq_self

/-- `OPC` and `ARG` are the whole word (30_encoding.md R71). -/
theorem commandWord_fields (w : BitVec 32) : commandWord (opcField w) (argField w) = w := by
  rw [commandWord, opcField, argField, BitVec.extractLsb'_append_extractLsb'_eq_extractLsb' (by decide)]
  exact BitVec.extractLsb'_eq_self

/-! ### The operands of `BC.CFG` -/

section CfgArg

variable (bs ks : Nat) (var : Variant)

theorem cfgArg_bs : (cfgArg bs ks var).extractLsb' 0 8 = BitVec.ofNat 8 bs := by
  rw [cfgArg, BitVec.extractLsb'_append_eq_of_add_le (by decide)]
  exact BitVec.extractLsb'_eq_self

theorem cfgArg_ks : (cfgArg bs ks var).extractLsb' 8 12 = BitVec.ofNat 12 ks := by
  rw [cfgArg, BitVec.extractLsb'_append_eq_of_le (by decide), BitVec.extractLsb'_append_eq_of_add_le (by decide)]
  exact BitVec.extractLsb'_eq_self

theorem cfgArg_var : (cfgArg bs ks var).extractLsb' 20 1 = var.bit := by
  rw [cfgArg, BitVec.extractLsb'_append_eq_of_le (by decide), BitVec.extractLsb'_append_eq_of_le (by decide),
    BitVec.extractLsb'_append_eq_of_add_le (by decide)]
  exact BitVec.extractLsb'_eq_self

theorem cfgArg_reserved : (cfgArg bs ks var).extractLsb' 21 3 = 0 := by
  rw [cfgArg, BitVec.extractLsb'_append_eq_of_le (by decide), BitVec.extractLsb'_append_eq_of_le (by decide),
    BitVec.extractLsb'_append_eq_of_le (by decide)]
  exact BitVec.extractLsb'_eq_self

end CfgArg

theorem variant_ofBit_bit (var : Variant) : Variant.ofBit var.bit = var := by
  cases var <;> rfl

theorem variant_bit_ofBit (b : BitVec 1) : (Variant.ofBit b).bit = b := by
  revert b
  decide

/-- The four fields of `ARG` are all of it (30_encoding.md R74). -/
theorem cfgArg_fields {arg : BitVec 24} (hreserved : arg.extractLsb' 21 3 = 0) :
    cfgArg (arg.extractLsb' 0 8).toNat (arg.extractLsb' 8 12).toNat (Variant.ofBit (arg.extractLsb' 20 1)) = arg := by
  have hreserved' : 0#3 = arg.extractLsb' 21 3 := hreserved.symm
  rw [cfgArg, variant_bit_ofBit, BitVec.ofNat_toNat, BitVec.ofNat_toNat, BitVec.setWidth_eq, BitVec.setWidth_eq, hreserved',
    BitVec.extractLsb'_append_extractLsb'_eq_extractLsb' (by decide),
    BitVec.extractLsb'_append_extractLsb'_eq_extractLsb' (by decide),
    BitVec.extractLsb'_append_extractLsb'_eq_extractLsb' (by decide)]
  exact BitVec.extractLsb'_eq_self

theorem wellFormed_bcCfg_iff {bs ks : Nat} {var : Variant} :
    (Instr.bcCfg bs ks var).wellFormed = true ↔ bs < 2 ^ 8 ∧ ks < 2 ^ 12 := by
  simp [Instr.wellFormed]

/-- The operands that fit their fields are read back (30_encoding.md R74). -/
theorem decodeCfg_cfgArg (opc : BitVec 8) {bs ks : Nat} (var : Variant) (hbs : bs < 2 ^ 8) (hks : ks < 2 ^ 12) :
    decodeCfg opc (cfgArg bs ks var) = .ok (.bcCfg bs ks var) := by
  rw [decodeCfg, if_pos (cfgArg_reserved bs ks var), cfgArg_bs, cfgArg_ks, cfgArg_var, variant_ofBit_bit,
    BitVec.toNat_ofNat, BitVec.toNat_ofNat, Nat.mod_eq_of_lt hbs, Nat.mod_eq_of_lt hks]

theorem cfgArg_of_decodeCfg_ok {opc : BitVec 8} {arg : BitVec 24} {i : Instr} (h : decodeCfg opc arg = .ok i) :
    ∃ bs ks var, bs < 2 ^ 8 ∧ ks < 2 ^ 12 ∧ i = .bcCfg bs ks var ∧ cfgArg bs ks var = arg := by
  unfold decodeCfg at h
  split at h
  · exact ⟨_, _, _, BitVec.isLt _, BitVec.isLt _, (Except.ok.inj h).symm, cfgArg_fields ‹_›⟩
  · cases h

theorem decodeCfg_reserved (opc : BitVec 8) {arg : BitVec 24} (h : arg.extractLsb' 21 3 ≠ 0) :
    decodeCfg opc arg = .error (.reservedArgument opc arg) := if_neg h

/-! ### The opcode map -/

/-- The opcodes of 30_encoding.md R73. -/
def opcodeMap : List (BitVec 8) :=
  [0x00#8, 0x10#8, 0x11#8, 0x12#8, 0x13#8, 0x20#8, 0x21#8, 0x30#8, 0x31#8, 0x3F#8]

/-- The commands without operands by opcode: all but `BC.CFG` (30_encoding.md R73, R75). -/
def plainCommands : List (BitVec 8 × Instr) :=
  [(0x00#8, .nop), (0x11#8, .bcRekey), (0x12#8, .bcEnc), (0x13#8, .bcDec), (0x20#8, .csEnc), (0x21#8, .csDec),
    (0x30#8, .hsStart), (0x31#8, .hsRx), (0x3F#8, .hsAbort)]

theorem exists_plain_of_mem_opcodeMap {opc : BitVec 8} (h : opc ∈ opcodeMap) (hcfg : opc ≠ 0x10#8) :
    ∃ i, (opc, i) ∈ plainCommands := by
  have hplain : ∀ o ∈ opcodeMap, o ≠ 0x10#8 → o ∈ plainCommands.map Prod.fst := by decide
  obtain ⟨⟨_, i⟩, hi, rfl⟩ := List.mem_map.mp (hplain opc h hcfg)
  exact ⟨i, hi⟩

theorem decodeCommand_plain {w : BitVec 32} {i : Instr} (h : (opcField w, i) ∈ plainCommands) :
    decodeCommand w = decodeNoArg i (opcField w) (argField w) := by
  simp only [plainCommands, List.mem_cons, Prod.mk.injEq, List.not_mem_nil, or_false] at h
  rcases h with ⟨ho, rfl⟩ | ⟨ho, rfl⟩ | ⟨ho, rfl⟩ | ⟨ho, rfl⟩ | ⟨ho, rfl⟩ | ⟨ho, rfl⟩ | ⟨ho, rfl⟩ | ⟨ho, rfl⟩ |
    ⟨ho, rfl⟩ <;>
    simp [decodeCommand, ho]

theorem decodeCommand_cfg {w : BitVec 32} (h : opcField w = 0x10#8) : decodeCommand w = decodeCfg 0x10#8 (argField w) := by
  simp [decodeCommand, h]

theorem decodeCommand_reserved {w : BitVec 32} (h : opcField w ∉ opcodeMap) :
    decodeCommand w = .error (.reservedOpcode (opcField w)) := by
  simp only [opcodeMap, List.mem_cons, List.not_mem_nil, or_false, not_or] at h
  simp [decodeCommand, h]

/-- A word has the opcode of a command without operands, that of `BC.CFG`, or a reserved one (30_encoding.md R73, R76). -/
theorem opcField_cases (w : BitVec 32) :
    (∃ i, (opcField w, i) ∈ plainCommands) ∨ opcField w = 0x10#8 ∨ opcField w ∉ opcodeMap := by
  by_cases hmap : opcField w ∈ opcodeMap
  · by_cases hcfg : opcField w = 0x10#8
    · exact .inr (.inl hcfg)
    · exact .inl (exists_plain_of_mem_opcodeMap hmap hcfg)
  · exact .inr (.inr hmap)

theorem encode_plain {opc : BitVec 8} {i : Instr} (h : (opc, i) ∈ plainCommands) :
    i.wellFormed = true ∧ encode i = .command (commandWord opc 0) := by
  have hall : ∀ p ∈ plainCommands, p.2.wellFormed = true ∧ encode p.2 = .command (commandWord p.1 0) := by decide
  exact hall _ h

theorem arg_eq_zero_of_decodeNoArg_ok {i j : Instr} {opc : BitVec 8} {arg : BitVec 24} (h : decodeNoArg i opc arg = .ok j) :
    arg = 0 := by
  unfold decodeNoArg at h
  split at h
  · assumption
  · cases h

theorem decodeNoArg_reserved (i : Instr) (opc : BitVec 8) {arg : BitVec 24} (h : arg ≠ 0) :
    decodeNoArg i opc arg = .error (.reservedArgument opc arg) := if_neg h

/-! ### Decoding and encoding undo each other -/

/-- Settles O2: only `BC.CFG` has operands, and its fields are read where they were written. -/
theorem decodeEncodeRoundTrip : Obligations.DecodeEncodeRoundTrip := by
  intro i hwf
  cases i with
  | bcCfg bs ks var =>
    obtain ⟨hbs, hks⟩ := wellFormed_bcCfg_iff.mp hwf
    calc decodeCommand (commandWord 0x10#8 (cfgArg bs ks var))
        = decodeCfg 0x10#8 (argField (commandWord 0x10#8 (cfgArg bs ks var))) := decodeCommand_cfg (opcField_commandWord _ _)
      _ = .ok (.bcCfg bs ks var) := by rw [argField_commandWord, decodeCfg_cfgArg 0x10#8 var hbs hks]
  | _ => rfl

/-- A command word that decodes is the encoding of its instruction (30_encoding.md R71, R76). -/
theorem encode_of_decodeCommand {w : BitVec 32} {i : Instr} (h : decodeCommand w = .ok i) :
    i.wellFormed = true ∧ encode i = .command w := by
  rcases opcField_cases w with ⟨j, hj⟩ | hcfg | hreserved
  · rw [decodeCommand_plain hj] at h
    obtain rfl := decodeNoArg_ok h
    have hw : commandWord (opcField w) 0 = w := arg_eq_zero_of_decodeNoArg_ok h ▸ commandWord_fields w
    exact hw ▸ encode_plain hj
  · rw [decodeCommand_cfg hcfg] at h
    obtain ⟨bs, ks, var, hbs, hks, rfl, harg⟩ := cfgArg_of_decodeCfg_ok h
    refine ⟨wellFormed_bcCfg_iff.mpr ⟨hbs, hks⟩, ?_⟩
    rw [encode, harg, ← hcfg, commandWord_fields]
  · rw [decodeCommand_reserved hreserved] at h
    cases h

/-- A code of `HSTATE` that decodes is the encoding of its step (30_encoding.md R82). -/
theorem encode_of_decodeState {c : BitVec 4} {i : Instr} (h : decodeState c = .ok i) :
    i.wellFormed = true ∧ encode i = .state c := by
  unfold decodeState at h
  split_ifs at h
  all_goals
    obtain rfl := Except.ok.inj h
    exact ⟨rfl, by rw [encode, ‹c = _›]⟩

/-- Settles O3, for each of the two kinds of code. -/
theorem encodeDecodeRoundTrip : Obligations.EncodeDecodeRoundTrip := by
  intro c i h
  cases c with
  | command w => exact encode_of_decodeCommand h
  | state c => exact encode_of_decodeState h

/-- Settles O1: each code is the encoding of its instruction, by evaluation, and so decodes to it. -/
theorem commandWordsDecode : Obligations.CommandWordsDecode :=
  ⟨decodeEncodeRoundTrip .nop rfl, decodeEncodeRoundTrip (.bcCfg 128 256 .standard) rfl,
    decodeEncodeRoundTrip (.bcCfg 128 256 .alternate) rfl, decodeEncodeRoundTrip (.bcCfg 32 64 .standard) rfl,
    decodeEncodeRoundTrip .bcRekey rfl, decodeEncodeRoundTrip .csDec rfl, decodeEncodeRoundTrip .hsAbort rfl,
    decodeEncodeRoundTrip .stepValidateRequest rfl, decodeEncodeRoundTrip .stepDecryptSessionKey rfl,
    decodeEncodeRoundTrip .stepDecryptPayload rfl, decodeEncodeRoundTrip .stepVerifySignature rfl,
    decodeEncodeRoundTrip .stepVerifyHash rfl, decodeEncodeRoundTrip .stepBuildResponse rfl⟩

/-! ### The rows of the opcode table -/

/-- Every instruction's code is the one of its row of the table, or the code of a sequencer state (30_encoding.md R77,
R82). -/
theorem rowMatch (i : Instr) : Laws.RowMatch.Statement i := by
  cases i with
  | nop => exact Laws.RowMatch.nop
  | bcCfg bs ks var => exact Laws.RowMatch.bcCfg bs ks var
  | bcRekey => exact Laws.RowMatch.bcRekey
  | bcEnc => exact Laws.RowMatch.bcEnc
  | bcDec => exact Laws.RowMatch.bcDec
  | csEnc => exact Laws.RowMatch.csEnc
  | csDec => exact Laws.RowMatch.csDec
  | hsStart => exact Laws.RowMatch.hsStart
  | hsRx => exact Laws.RowMatch.hsRx
  | hsAbort => exact Laws.RowMatch.hsAbort
  | stepValidateRequest => exact Laws.RowMatch.stepValidateRequest
  | stepDecryptSessionKey => exact Laws.RowMatch.stepDecryptSessionKey
  | stepDecryptPayload => exact Laws.RowMatch.stepDecryptPayload
  | stepVerifySignature => exact Laws.RowMatch.stepVerifySignature
  | stepVerifyHash => exact Laws.RowMatch.stepVerifyHash
  | stepBuildResponse => exact Laws.RowMatch.stepBuildResponse

theorem row_of_decodeCommand {w : BitVec 32} {i : Instr} (h : decodeCommand w = .ok i) :
    ∃ r, i.row = some r ∧ r.selects w = true := by
  obtain ⟨hwf, henc⟩ := encode_of_decodeCommand h
  have hrow := rowMatch i hwf
  rw [henc] at hrow
  obtain ⟨r, hr, -, hsel⟩ := hrow
  exact ⟨r, hr, hsel⟩

/-- Only `BC.CFG` can be ill formed, and it is no step. -/
theorem wellFormed_of_encode_state {i : Instr} {c : BitVec 4} (h : encode i = .state c) : i.wellFormed = true := by
  cases i with
  | bcCfg bs ks var => cases h
  | _ => rfl

theorem row_of_encode_state {i : Instr} {c : BitVec 4} (h : encode i = .state c) : i.row = none := by
  have hrow := rowMatch i (wellFormed_of_encode_state h)
  rw [h] at hrow
  obtain ⟨hnone, -⟩ := hrow
  exact hnone

/-- The row of `BC.CFG` fixes the opcode and the reserved bits of `ARG` (30_encoding.md R74, R77). -/
theorem cfgRow_fields {w : BitVec 32} (h : w &&& 0xFFE00000#32 = 0x10000000#32) :
    opcField w = 0x10#8 ∧ (argField w).extractLsb' 21 3 = 0 := by
  have hfield : ∀ start len, w.extractLsb' start len &&& (0xFFE00000#32).extractLsb' start len =
      (0x10000000#32).extractLsb' start len := fun start len => by rw [← BitVec.extractLsb'_and, h]
  have hopc := hfield 24 8
  have hres := hfield 21 3
  rw [show (0xFFE00000#32).extractLsb' 24 8 = BitVec.allOnes 8 by decide, BitVec.and_allOnes] at hopc
  rw [show (0xFFE00000#32).extractLsb' 21 3 = BitVec.allOnes 3 by decide, BitVec.and_allOnes] at hres
  rw [argField, BitVec.extractLsb'_extractLsb'_of_le (by decide)]
  exact ⟨hopc.trans (by decide), hres.trans (by decide)⟩

/-- What the row of `BC.CFG` selects is a `BC.CFG`. -/
theorem decodeCommand_of_cfgRow {w : BitVec 32} (h : w &&& 0xFFE00000#32 = 0x10000000#32) :
    ∃ bs ks var, decodeCommand w = .ok (.bcCfg bs ks var) := by
  obtain ⟨hopc, hres⟩ := cfgRow_fields h
  exact ⟨_, _, _, (decodeCommand_cfg hopc).trans (if_pos hres)⟩

/-- The row of an instruction without operands selects its code alone. -/
theorem eq_pattern_of_selects {r : CommandRow} {w : BitVec 32} (hmask : r.mask = 0xFFFFFFFF#32) (h : r.selects w = true) :
    w = r.pattern := by
  have hand : w &&& BitVec.allOnes 32 = r.pattern := by
    rw [CommandRow.selects, hmask] at h
    exact eq_of_beq h
  rwa [BitVec.and_allOnes] at hand

/-- Every other row is that of a command without operands. -/
theorem exists_plain_of_row : ∀ r ∈ commandRows, r ≠ ⟨0x10000000#32, 0xFFE00000#32⟩ →
    r.mask = 0xFFFFFFFF#32 ∧ ∃ p ∈ plainCommands, commandWord p.1 0 = r.pattern ∧ p.2.row = some r := by
  decide

/-- A row selects only words of its instruction. -/
theorem decodeCommand_of_selects {w : BitVec 32} {r : CommandRow} (hr : r ∈ commandRows) (h : r.selects w = true) :
    ∃ i, decodeCommand w = .ok i ∧ i.row = some r := by
  by_cases hcfg : r = ⟨0x10000000#32, 0xFFE00000#32⟩
  · subst hcfg
    obtain ⟨bs, ks, var, hdec⟩ := decodeCommand_of_cfgRow (eq_of_beq h)
    exact ⟨_, hdec, rfl⟩
  · obtain ⟨hmask, ⟨opc, i⟩, hi, hw, hrow⟩ := exists_plain_of_row r hr hcfg
    obtain ⟨hwf, henc⟩ := encode_plain hi
    have hdec := decodeEncodeRoundTrip i hwf
    rw [henc, hw, ← eq_pattern_of_selects hmask h] at hdec
    exact ⟨i, hdec, hrow⟩

/-- Settles O4: two rows that select a word are rows of the one instruction it decodes to. -/
theorem rowsSelectWhatDecodes : Obligations.RowsSelectWhatDecodes := by
  refine ⟨fun _ _ => row_of_decodeCommand, fun _ _ => decodeCommand_of_selects, fun w r q hr hq hrw hqw => ?_,
    by decide, rfl, fun _ _ => row_of_encode_state⟩
  obtain ⟨i, hi, hrow⟩ := decodeCommand_of_selects hr hrw
  obtain ⟨j, hj, hrow'⟩ := decodeCommand_of_selects hq hqw
  obtain rfl : i = j := Except.ok.inj (hi.symm.trans hj)
  exact Option.some.inj (hrow.symm.trans hrow')

/-! ### Reserved words -/

theorem serveCommand_of_ok {w : BitVec 32} {i : Instr} (h : decodeCommand w = .ok i) (s : State) :
    serveCommand w s = exec i s := by
  rcases serveCommand_cases w s with ⟨j, hj, hs⟩ | ⟨e, he, -⟩
  · rwa [Except.ok.inj (h.symm.trans hj)]
  · cases h.symm.trans he

theorem serveCommand_of_error {w : BitVec 32} {e : DecodeError} (h : decodeCommand w = .error e) (s : State) :
    serveCommand w s = .next s.reject := by
  rcases serveCommand_cases w s with ⟨i, hi, -⟩ | ⟨-, -, hs⟩
  · cases h.symm.trans hi
  · exact hs

/-- No word but 0 is `NOP` (30_encoding.md R76). -/
theorem eq_zero_of_decode_nop {w : BitVec 32} (h : decodeCommand w = .ok .nop) : w = 0 := by
  obtain ⟨-, henc⟩ := encode_of_decodeCommand h
  exact (Code.command.inj henc).symm.trans (by decide)

/-- Ten of the 256 opcodes are in the map (30_encoding.md R73, R76). -/
theorem reservedOpcodes_count : ((List.range 256).filter fun n => decide (BitVec.ofNat 8 n ∉ opcodeMap)).length = 246 := by
  decide +kernel

/-- Settles O5: in each class of reserved words decoding fails, and such a word is rejected. -/
theorem reservedWordsAreRejected : Obligations.ReservedWordsAreRejected := by
  refine fun w s => ⟨fun hopc => ?_, fun hopc hres => ?_, fun hmap hcfg harg => ?_, eq_zero_of_decode_nop,
    reservedOpcodes_count⟩
  · exact serveCommand_of_error (decodeCommand_reserved hopc) s
  · have hres' : (argField w).extractLsb' 21 3 ≠ 0 := by
      rwa [argField, BitVec.extractLsb'_extractLsb'_of_le (by decide)]
    exact serveCommand_of_error ((decodeCommand_cfg hopc).trans (decodeCfg_reserved _ hres')) s
  · obtain ⟨i, hi⟩ := exists_plain_of_mem_opcodeMap hmap hcfg
    exact serveCommand_of_error ((decodeCommand_plain hi).trans (decodeNoArg_reserved i _ harg)) s

end Sys2Proof.Machine

namespace Sys2Proof.Machine

open Sys2Proof

/-! ### The decoded instruction is run -/

theorem sequencerTurn_of_ok {s : State} {i : Instr} (h : decode (.state s.hstate.code) = .ok i) :
    sequencerTurn s = exec i s := by
  rw [sequencerTurn, h]

/-- A command at the head of the inbox is served from the state without it (30_encoding.md R72). -/
theorem step_of_command {s : State} {w : BitVec 32} {q : List Event} (h : s.env.inbox = .host (.write (.cmd w)) :: q) :
    step s = serveCommand w (s.withInbox q) := step_of_inbox_cons h

theorem step_of_sequencer {s : State} {q : List Event} (h : s.env.inbox = .sequencer :: q) :
    step s = sequencerTurn (s.withInbox q) := step_of_inbox_cons h

/-- Settles O6: the event is taken off the inbox, which neither the word nor `HSTATE` depends on. -/
theorem stepRunsTheDecodedInstruction : Obligations.StepRunsTheDecodedInstruction := by
  refine fun s => ⟨fun w q i hin hi => ⟨(encodeDecodeRoundTrip _ i hi).1, ?_⟩, fun w q e hin he => ?_,
    fun i hin hi => ⟨(encodeDecodeRoundTrip _ i hi).1, ?_⟩, fun q i hin hi => ⟨(encodeDecodeRoundTrip _ i hi).1, ?_⟩⟩
  · exact (step_of_command hin).trans (serveCommand_of_ok hi _)
  · exact (step_of_command hin).trans (serveCommand_of_error he _)
  · exact (step_of_inbox_nil hin).trans (sequencerTurn_of_ok hi)
  · exact (step_of_sequencer hin).trans (sequencerTurn_of_ok (s := s.withInbox q) hi)

/-! ### Placing an instruction -/

theorem HState.ofCode_code (x : HState) : HState.ofCode x.code = some x := by
  cases x <;> rfl

/-- The code of a step is the code of the state that selects it (30_encoding.md R82). -/
theorem exists_hstate_of_encode_state {i : Instr} {c : BitVec 4} (h : encode i = .state c) : ∃ x : HState, x.code = c := by
  cases i with
  | stepValidateRequest => exact ⟨.validateRequest, Code.state.inj h⟩
  | stepDecryptSessionKey => exact ⟨.decryptSessionKey, Code.state.inj h⟩
  | stepDecryptPayload => exact ⟨.decryptPayload, Code.state.inj h⟩
  | stepVerifySignature => exact ⟨.verifySignature, Code.state.inj h⟩
  | stepVerifyHash => exact ⟨.verifyHash, Code.state.inj h⟩
  | stepBuildResponse => exact ⟨.buildResponse, Code.state.inj h⟩
  | _ => cases h

theorem withFetchWord_command (s : State) (w : BitVec 32) :
    s.withFetchWord 32 w.toNat = s.withInbox (.host (.write (.cmd w)) :: s.env.inbox) := by
  rw [State.withFetchWord, if_neg (by decide), BitVec.ofNat_toNat, BitVec.setWidth_eq]

/-- A state code is placed as `HSTATE`, whether counted as 4 bits or as one byte (log 25). -/
theorem withFetchWord_state (s : State) (x : HState) {nbits : Nat} (hbits : nbits ≤ 8) :
    s.withFetchWord nbits x.code.toNat = { s with hstate := x }.withInbox (.sequencer :: s.env.inbox) := by
  rw [State.withFetchWord, if_pos hbits, BitVec.ofNat_toNat, BitVec.setWidth_eq, HState.ofCode_code]

theorem step_placed_command {s : State} {w : BitVec 32} {i : Instr} (h : decodeCommand w = .ok i) :
    step (s.withFetchWord 32 w.toNat) = exec i s := by
  rw [withFetchWord_command, step_of_command rfl, State.withInbox_withInbox]
  exact serveCommand_of_ok h s

theorem step_placed_state {s : State} {x : HState} {i : Instr} {nbits : Nat} (hbits : nbits ≤ 8)
    (h : decodeState x.code = .ok i) : step (s.withFetchWord nbits x.code.toNat) = exec i { s with hstate := x } := by
  rw [withFetchWord_state s x hbits, step_of_sequencer rfl, State.withInbox_withInbox]
  exact sequencerTurn_of_ok (s := { s with hstate := x }) h

/-- Settles O9: the code placed decodes to its instruction, and the event placed with it leaves the inbox as it was. -/
theorem placedInstructionRunsNext : Obligations.PlacedInstructionRunsNext := by
  intro s i hwf
  have hdec := decodeEncodeRoundTrip i hwf
  refine ⟨fun w henc => ?_, fun c henc => ?_⟩ <;> rw [henc] at hdec
  · exact step_placed_command hdec
  · obtain ⟨x, rfl⟩ := exists_hstate_of_encode_state henc
    exact ⟨x, rfl, step_placed_state (by decide) hdec, step_placed_state (by decide) hdec⟩

/-! ### Admission -/

theorem HState.unitsFree_iff {x : HState} : x.unitsFree = true ↔ x = .idle ∨ x = .sent ∨ x = .closed := by
  simp [HState.unitsFree, or_assoc]

/-- The commands of the BC and CS units and `HS.START` (30_encoding.md R79). -/
def UnitsCommand (i : Instr) : Prop :=
  i ∈ [Instr.bcRekey, .bcEnc, .bcDec, .csEnc, .csDec, .hsStart] ∨ ∃ bs ks var, i = .bcCfg bs ks var

/-- Each of them is guarded by the host's owning the units. -/
theorem exec_of_unitsCommand {i : Instr} (hi : UnitsCommand i) (s : State) :
    ∃ t, exec i s = .next (s.ifAdmitted s.hstate.unitsFree t) := by
  rcases hi with hi | ⟨bs, ks, var, rfl⟩
  · simp only [List.mem_cons, List.not_mem_nil, or_false] at hi
    rcases hi with rfl | rfl | rfl | rfl | rfl | rfl <;> exact ⟨_, rfl⟩
  · exact ⟨_, rfl⟩

theorem exec_unitsCommand_rejected {i : Instr} (hi : UnitsCommand i) {s : State} (hbusy : s.hstate.unitsFree = false) :
    exec i s = .next s.reject := by
  obtain ⟨t, ht⟩ := exec_of_unitsCommand hi s
  rw [ht, hbusy, ifAdmitted_false]

theorem exec_hsRx_rejected {s : State} (h : s.hstate ≠ .awaitRequest) : exec .hsRx s = .next s.reject := by
  show Host.Outcome.next (s.ifAdmitted (decide (s.hstate = .awaitRequest)) _) = _
  rw [decide_eq_false h, ifAdmitted_false]

/-- Settles O44: those commands and `HS.RX` are guarded by the state; `NOP` and `HS.ABORT` are not, and end in success. -/
theorem admissionByState : Obligations.AdmissionByState := by
  intro s
  refine ⟨fun hidle hsent hclosed => ?_, exec_hsRx_rejected, ⟨_, rfl, rfl⟩, ⟨_, rfl, rfl⟩⟩
  have hbusy : s.hstate.unitsFree = false := by
    rw [← Bool.not_eq_true, HState.unitsFree_iff]
    simp only [hidle, hsent, hclosed, or_self, not_false_eq_true]
  exact ⟨fun i hi => exec_unitsCommand_rejected (.inl hi) hbusy,
    fun bs ks var => exec_unitsCommand_rejected (.inr ⟨bs, ks, var, rfl⟩) hbusy⟩

/-! ### Host reads -/

theorem readReg_of_number {n : BitVec 5} {r : Reg} (h : Reg.ofNumber n = some r) (s : State) :
    s.readReg n = r.read s := by
  rw [State.readReg, h]

theorem readReg_of_reserved {n : BitVec 5} (h : Reg.ofNumber n = none) (s : State) : s.readReg n = .number 0 := by
  rw [State.readReg, h]

/-- The registers a host may not read read 0: `CMD`, `KEY`, `PRIV_D`, `RXLEN`, `RXBUF` (30_encoding.md R80). -/
theorem read_of_writeOnly {r : Reg} (h : r ∈ [Reg.cmd, .key, .privD, .rxlen, .rxbuf]) (s : State) :
    r.read s = .number 0 := by
  simp only [List.mem_cons, List.not_mem_nil, or_false] at h
  rcases h with rfl | rfl | rfl | rfl | rfl <;> rfl

/-- The numbers that read 0 are reserved or of write-only registers. -/
theorem readReg_zero {n : BitVec 5} (s : State)
    (h : n ∈ [0x00#5, 0x04#5, 0x07#5, 0x0D#5, 0x0E#5, 0x0F#5, 0x14#5, 0x16#5, 0x17#5, 0x1B#5, 0x1C#5, 0x1D#5, 0x1E#5,
      0x1F#5]) : s.readReg n = .number 0 := by
  have hkind : Reg.ofNumber n = none ∨ ∃ r ∈ [Reg.cmd, .key, .privD, .rxlen, .rxbuf], Reg.ofNumber n = some r := by
    revert n
    decide
  rcases hkind with hnone | ⟨r, hr, hsome⟩
  · exact readReg_of_reserved hnone s
  · rw [readReg_of_number hsome, read_of_writeOnly hr]

/-- Byte `a` of `BUF[0..n)` (00_scope.md R18). -/
theorem Memory.slice_getElem? (m : Memory) {n a : Nat} (h : a < n) : (m.slice n)[a]? = some (m.read a) := by
  simp [Memory.slice, h]

/-- Settles O53: each number not among those that read 0 has its register in the map, whose value the host gets. -/
theorem hostReadMap : Obligations.HostReadMap := by
  intro s
  exact ⟨fun n => readReg_zero s, readReg_of_number (r := .res) rfl s, readReg_of_number (r := .status) rfl s,
    readReg_of_number (r := .cfg) rfl s, readReg_of_number (r := .din) rfl s, readReg_of_number (r := .dout) rfl s,
    readReg_of_number (r := .nonce) rfl s, readReg_of_number (r := .mlen) rfl s, readReg_of_number (r := .msg) rfl s,
    readReg_of_number (r := .cbn) rfl s, readReg_of_number (r := .cblk) rfl s, readReg_of_number (r := .hstate) rfl s,
    readReg_of_number (r := .herr) rfl s, readReg_of_number (r := .pubE) rfl s, readReg_of_number (r := .pubN) rfl s,
    readReg_of_number (r := .privN) rfl s, readReg_of_number (r := .txlen) rfl s, readReg_of_number (r := .txbuf) rfl s,
    readReg_of_number (r := .newkey) rfl s, fun m n => ⟨m.slice_length n, fun _ => m.slice_getElem?⟩⟩

/-! ### Host writes -/

theorem serveAccess_store {s : State} {w : HostWrite} (hcmd : ∀ c, w ≠ .cmd c) (hwindow : w.inWindow s.hstate = true)
    (hfits : w.fits = true) : serveAccess (.write w) s = .next (w.store s) := by
  rcases serveWrite_cases s w with ⟨-, -, hs⟩ | ⟨hno, -⟩
  · rw [serveAccess_write_of_ne_cmd hcmd, hs]
  · simp [hwindow, hfits] at hno

theorem serveAccess_drop {s : State} {w : HostWrite} (hcmd : ∀ c, w ≠ .cmd c)
    (hno : w.inWindow s.hstate = false ∨ w.fits = false) : serveAccess (.write w) s = .next s.dropWrite := by
  rcases serveWrite_cases s w with ⟨hwindow, hfits, -⟩ | ⟨-, hs⟩
  · simp [hwindow, hfits] at hno
  · rw [serveAccess_write_of_ne_cmd hcmd, hs]

/-- The window of the received frame (30_encoding.md R81). -/
def HState.frameWindow (x : HState) : Bool := x.unitsFree || decide (x = .awaitRequest)

theorem HState.frameWindow_iff {x : HState} :
    x.frameWindow = true ↔ x = .idle ∨ x = .sent ∨ x = .closed ∨ x = .awaitRequest := by
  simp [HState.frameWindow, HState.unitsFree_iff, or_assoc]

/-- In `AWAIT_REQUEST` only `CMD` and the received frame may be written (30_encoding.md R81). -/
theorem inWindow_awaitRequest {w : HostWrite} (hcmd : ∀ c, w ≠ .cmd c) (hrxlen : ∀ v, w ≠ .rxlen v)
    (hrxbuf : ∀ b, w ≠ .rxbuf b) : w.inWindow .awaitRequest = false := by
  cases w with
  | cmd c => exact absurd rfl (hcmd c)
  | rxlen v => exact absurd rfl (hrxlen v)
  | rxbuf b => exact absurd rfl (hrxbuf b)
  | _ => rfl

theorem HState.frameWindow_of_seq {x : HState} (h : x.seq = true) : x.frameWindow = false := by
  revert h
  cases x <;> decide

/-- While the sequencer runs only `CMD` may be written (30_encoding.md R81). -/
theorem inWindow_of_seq {x : HState} (h : x.seq = true) {w : HostWrite} (hcmd : ∀ c, w ≠ .cmd c) :
    w.inWindow x = false := by
  have hframe := HState.frameWindow_of_seq h
  have hfree : x.unitsFree = false := (Bool.or_eq_false_iff.mp hframe).1
  cases w with
  | cmd c => exact absurd rfl (hcmd c)
  | rxlen v => exact hframe
  | rxbuf b => exact hframe
  | unwritable r => rfl
  | _ => exact hfree

/-- The registers a host may not write, the reserved numbers included (30_encoding.md R80). -/
def unwritableRegs : List UnwritableReg :=
  .res :: .status :: .cfg :: .dout :: .mlen :: .hstate :: .herr :: .txlen :: .txbuf :: .newkey ::
    (List.finRange 9).map .reserved

/-- A write to each register number. -/
def oneWritePerNumber : List HostWrite :=
  .cmd 0 :: .key 0 :: .din 0 :: .nonce 0 :: .msg 0 :: .cbn 0 :: .cblk [] :: .pubE 0 :: .pubN 0 :: .privD 0 :: .privN 0 ::
    .rxlen 0 :: .rxbuf [] :: unwritableRegs.map .unwritable

theorem exists_write_of_number (n : BitVec 5) : ∃ w : HostWrite, w.number = n := by
  have hall : ∀ n : BitVec 5, n ∈ oneWritePerNumber.map HostWrite.number := by decide
  obtain ⟨w, -, hw⟩ := List.mem_map.mp (hall n)
  exact ⟨w, hw⟩

/-- The writes of the received frame in its window: a length or buffer that fits is stored, another dropped (log 12, 13). -/
theorem frameWrites {s : State} (h : s.hstate.frameWindow = true) :
    (∀ v, v ≤ 100000008 → serveAccess (.write (.rxlen v)) s = .next { s with rxlen := v }) ∧
    (∀ v, 100000008 < v → serveAccess (.write (.rxlen v)) s = .next { s with ill := true }) ∧
    (∀ b : Bytes, b.length ≤ 100000008 → ∃ buf : Memory, (∀ a, buf.read a = b.getD a 0) ∧
      serveAccess (.write (.rxbuf b)) s = .next { s with rxbuf := buf }) ∧
    (∀ b : Bytes, 100000008 < b.length → serveAccess (.write (.rxbuf b)) s = .next { s with ill := true }) :=
  ⟨fun _ hv => serveAccess_store nofun h (decide_eq_true hv),
    fun _ hv => serveAccess_drop nofun (.inr (decide_eq_false (Nat.not_le.mpr hv))),
    fun b hb => ⟨Memory.ofBytes b, Memory.read_ofBytes b, serveAccess_store nofun h (decide_eq_true hb)⟩,
    fun _ hb => serveAccess_drop nofun (.inr (decide_eq_false (Nat.not_le.mpr hb)))⟩

/-- Settles O55: a write is stored in its window and dropped elsewhere; the numbers are those of the table. -/
theorem writeWindows : Obligations.WriteWindows := by
  intro s
  refine ⟨fun hfree => ?_, fun hframe => frameWrites (HState.frameWindow_iff.mpr hframe),
    fun hawait w hcmd hrxlen hrxbuf => ?_,
    fun hseq w hcmd => serveAccess_drop hcmd (.inl (inWindow_of_seq hseq hcmd)),
    fun r => serveAccess_drop nofun (.inl rfl), ?_⟩
  · have hwindow := HState.unitsFree_iff.mpr hfree
    refine ⟨fun v => ?_, fun v => ?_, fun v => ?_, fun v => ?_, fun v => ?_, fun v => ?_, fun v => ?_, fun v => ?_,
      fun v => ?_, fun v => ?_⟩ <;> exact serveAccess_store nofun hwindow rfl
  · exact serveAccess_drop hcmd (.inl (hawait ▸ inWindow_awaitRequest hcmd hrxlen hrxbuf))
  · refine ⟨?_, ?_, ?_, ?_, ?_, ?_, ?_, ?_, ?_, ?_, ?_, ?_, ?_, ?_, by decide, by decide, exists_write_of_number⟩ <;>
      exact fun _ => rfl

/-! ### Codes and status bits -/

theorem append_ofBool_toNat {n : Nat} (x : BitVec n) (b : Bool) :
    (x ++ BitVec.ofBool b).toNat = 2 * x.toNat + b.toNat := by
  rw [mul_comm]
  exact BitVec.toNat_concat x b

/-- The bits of `STATUS` from bit 0 on (10_state.md R43). -/
theorem status_toNat (s : State) :
    s.status.toNat =
      s.kvalid.toNat + 2 * s.ill.toNat + 4 * s.txvalid.toNat + 8 * s.sigok.toNat + 16 * s.hashok.toNat +
        32 * s.hstate.seq.toNat := by
  simp only [State.status, append_ofBool_toNat]
  rw [show (0#26).toNat = 0 from rfl]
  omega

/-- The sequencer's states have the codes 2 to 7 (10_state.md R43, 30_encoding.md R82). -/
theorem HState.seq_iff_code (x : HState) : x.seq = true ↔ 2 ≤ x.code.toNat ∧ x.code.toNat ≤ 7 := by
  cases x <;> decide

/-- Settles O56: the codes by evaluation, `STATUS` bit by bit. -/
theorem codesAndStatusBits : Obligations.CodesAndStatusBits :=
  ⟨by decide, by decide, rfl, rfl, rfl, fun _ => rfl, rfl, rfl, fun _ => rfl,
    fun s => ⟨status_toNat s, s.hstate.seq_iff_code⟩⟩

end Sys2Proof.Machine

namespace Sys2Proof.Machine

open Sys2Proof

/-! ### Decimal digits -/

/-- The `n` lowest decimal digits of `v` in ASCII, most significant first; a length field has eight (30_encoding.md R87). -/
def decimalDigits (n v : Nat) : Bytes := (List.range n).map fun j => BitVec.ofNat 8 (0x30 + v / 10 ^ (n - 1 - j) % 10)

theorem lengthDigits_eq (v : Nat) : lengthDigits v = decimalDigits 8 v := rfl

theorem decimalDigits_length (n v : Nat) : (decimalDigits n v).length = n := by
  simp [decimalDigits]

/-- The last digit is the remainder by 10, the digits before it are those of the quotient. -/
theorem decimalDigits_succ (n v : Nat) :
    decimalDigits (n + 1) v = decimalDigits n (v / 10) ++ [BitVec.ofNat 8 (0x30 + v % 10)] := by
  have hdigit : ∀ j ∈ List.range n, v / 10 ^ (n + 1 - 1 - j) = v / 10 / 10 ^ (n - 1 - j) := fun j hj => by
    have hlt := List.mem_range.mp hj
    rw [Nat.div_div_eq_div_mul, ← pow_succ', show n + 1 - 1 - j = n - 1 - j + 1 by omega]
  rw [decimalDigits, List.range_succ, List.map_append, decimalDigits]
  congr 1
  · exact List.map_congr_left fun j hj => by rw [hdigit j hj]
  · simp

theorem digit_toNat (d : Nat) : (BitVec.ofNat 8 (0x30 + d % 10)).toNat = 0x30 + d % 10 :=
  toNat_ofNat_byte _ (by omega)

theorem digitsValue_append (ds : Bytes) (b : Byte) : digitsValue (ds ++ [b]) = 10 * digitsValue ds + (b.toNat - 0x30) := by
  rw [digitsValue, List.foldl_append]
  rfl

theorem digitsValue_decimalDigits (n : Nat) : ∀ v, digitsValue (decimalDigits n v) = v % 10 ^ n := by
  induction n with
  | zero => intro v; exact (Nat.mod_one v).symm
  | succ n ih =>
    intro v
    rw [decimalDigits_succ, digitsValue_append, ih, digit_toNat, pow_succ', Nat.mod_mul]
    omega

theorem isDigit_iff {b : Byte} : isDigit b = true ↔ 0x30 ≤ b.toNat ∧ b.toNat ≤ 0x39 := by
  simp [isDigit]

/-- Digits are the decimal form of the number they denote, leading zeros included. -/
theorem decimalDigits_digitsValue (ds : Bytes) :
    (∀ b ∈ ds, isDigit b = true) → decimalDigits ds.length (digitsValue ds) = ds := by
  induction ds using List.reverseRecOn with
  | nil => exact fun _ => rfl
  | append_singleton ds b ih =>
    intro hdigits
    obtain ⟨hlo, hhi⟩ := isDigit_iff.mp (hdigits b (by simp))
    have hquot : (10 * digitsValue ds + (b.toNat - 0x30)) / 10 = digitsValue ds := by omega
    have hrem : 0x30 + (10 * digitsValue ds + (b.toNat - 0x30)) % 10 = b.toNat := by omega
    rw [List.length_append, List.length_singleton, digitsValue_append, decimalDigits_succ, hquot, hrem,
      ih fun c hc => hdigits c (List.mem_append_left _ hc), BitVec.ofNat_toNat, BitVec.setWidth_eq]

theorem digitsValue_lt {ds : Bytes} (h : ∀ b ∈ ds, isDigit b = true) : digitsValue ds < 10 ^ ds.length := by
  have hvalue := digitsValue_decimalDigits ds.length (digitsValue ds)
  rw [decimalDigits_digitsValue ds h] at hvalue
  rw [hvalue]
  exact Nat.mod_lt _ (by positivity)

theorem isDigit_of_mem_decimalDigits {n v : Nat} {b : Byte} (h : b ∈ decimalDigits n v) : isDigit b = true := by
  obtain ⟨j, -, rfl⟩ := List.mem_map.mp h
  rw [isDigit_iff, digit_toNat]
  omega

theorem isDigit_of_mem_lengthDigits {v : Nat} {b : Byte} (h : b ∈ lengthDigits v) : isDigit b = true :=
  isDigit_of_mem_decimalDigits (n := 8) h

/-! ### Frames -/

/-- The tests of `frame_check` (30_encoding.md R88) as conditions on the frame; that the type is one of the three is implied. -/
theorem frameCheck_ok_iff {t : Byte} (ht : t = typeRequest ∨ t = typeResponse ∨ t = typeFile) {b p : Bytes} :
    frameCheck b t = .ok p ↔ 9 ≤ b.length ∧ b.getD 0 0 = t ∧ (∀ c ∈ lengthField b, isDigit c = true) ∧
      b.length - 9 = digitsValue (lengthField b) ∧ b.drop 9 = p := by
  constructor
  · intro h
    unfold frameCheck at h
    split_ifs at h with hlen hknown htype hdigits hvalue
    exact ⟨Nat.not_lt.mp hlen, not_not.mp htype, List.all_eq_true.mp hdigits, not_not.mp hvalue,
      Except.ok.inj h⟩
  · rintro ⟨hlen, rfl, hdigits, hvalue, rfl⟩
    rw [frameCheck, if_neg (Nat.not_lt.mpr hlen), if_neg (not_not.mpr ht), if_neg (not_not.mpr rfl),
      if_neg (not_not.mpr (List.all_eq_true.mpr hdigits)), if_neg (not_not.mpr hvalue)]

theorem lengthField_length {b : Bytes} (h : 9 ≤ b.length) : (lengthField b).length = 8 := by
  rw [lengthField, List.length_take, List.length_drop]
  omega

/-- A frame is its type byte, its length field and its payload (30_encoding.md R84). -/
theorem frame_parts {b : Bytes} (h : 9 ≤ b.length) : b = b.getD 0 0 :: (lengthField b ++ b.drop 9) := by
  cases b with
  | nil => cases h
  | cons t b =>
    show t :: b = t :: (b.take 8 ++ b.drop 8)
    rw [List.take_append_drop]

theorem lengthField_frameBuild (t : Byte) (p : Bytes) : lengthField (frameBuild t p) = lengthDigits p.length :=
  List.take_left' (decimalDigits_length 8 _)

theorem drop_frameBuild (t : Byte) (p : Bytes) : (frameBuild t p).drop 9 = p :=
  List.drop_left' (decimalDigits_length 8 _)

theorem digitsValue_lengthDigits {v : Nat} (hv : v ≤ 99999999) : digitsValue (lengthDigits v) = v := by
  rw [lengthDigits_eq, digitsValue_decimalDigits, Nat.mod_eq_of_lt (by omega)]

/-- Bytes that pass the tests are a frame that was built: eight digits denote at most 99999999 and are the digits of the
length. -/
theorem eq_frameBuild_of_frameCheck {t : Byte} (ht : t = typeRequest ∨ t = typeResponse ∨ t = typeFile) {b p : Bytes}
    (h : frameCheck b t = .ok p) : p.length ≤ 99999999 ∧ b = frameBuild t p := by
  obtain ⟨hlen, htype, hdigits, hvalue, hp⟩ := (frameCheck_ok_iff ht).mp h
  have hplen : p.length = digitsValue (lengthField b) := by rw [← hp, List.length_drop, hvalue]
  have hfield := decimalDigits_digitsValue _ hdigits
  have hlt := digitsValue_lt hdigits
  rw [lengthField_length hlen] at hfield hlt
  refine ⟨by omega, ?_⟩
  calc b = b.getD 0 0 :: (lengthField b ++ b.drop 9) := frame_parts hlen
    _ = frameBuild t p := by rw [frameBuild, lengthDigits_eq, hplen, hfield, htype, hp]

/-- A frame built of a payload that an eight-digit length can state passes (30_encoding.md R89). -/
theorem frameCheck_frameBuild {t : Byte} (ht : t = typeRequest ∨ t = typeResponse ∨ t = typeFile) {p : Bytes}
    (hp : p.length ≤ 99999999) : frameCheck (frameBuild t p) t = .ok p := by
  refine (frameCheck_ok_iff ht).mpr ⟨?_, rfl, ?_, ?_, drop_frameBuild t p⟩
  · rw [frameBuild_length]
    omega
  · rw [lengthField_frameBuild]
    exact fun c hc => isDigit_of_mem_lengthDigits hc
  · rw [lengthField_frameBuild, digitsValue_lengthDigits hp, frameBuild_length]
    omega

theorem lengthDigits_getD (v : Nat) {j : Nat} (hj : j < 8) :
    ((lengthDigits v).getD j 0).toNat = 0x30 + v / 10 ^ (7 - j) % 10 := by
  rw [List.getD_eq_getElem _ _ (by rwa [lengthDigits_eq, decimalDigits_length])]
  simp only [lengthDigits, List.getElem_map, List.getElem_range, digit_toNat]

/-- Settles O57: what is built passes, and what passes was built, since eight digits are the decimal form of their value. -/
theorem frameCheckAcceptsExactlyFrames : Obligations.FrameCheckAcceptsExactlyFrames := by
  intro t b ht
  refine ⟨fun p => ⟨eq_frameBuild_of_frameCheck ht, ?_⟩, fun _ => frameCheck_error, fun _ => rfl, fun v hv =>
    ⟨digitsValue_lengthDigits hv, decimalDigits_length 8 v, fun c hc => isDigit_iff.mp (isDigit_of_mem_lengthDigits hc),
      fun _ => lengthDigits_getD v⟩⟩
  rintro ⟨hp, rfl⟩
  exact frameCheck_frameBuild ht hp

end Sys2Proof.Machine

namespace Sys2Proof.Machine

open Sys2Proof

/-! ### Rotations -/

/-- Within the word a right rotation is the left rotation by the rest of the width (40_blockcipher.md R100, R101). -/
theorem ror_eq_rol {dim s : Nat} (hs : s ≤ dim) (x : Nat) : ror dim x s = rol dim x (dim - s) := by
  rw [ror, rol, Nat.sub_sub_self hs]

/-- The two parts of a rotation never overlap, so joining them is adding them (40_blockcipher.md R100). -/
theorem rol_eq_add {dim x s : Nat} (hs : s ≤ dim) (hx : x < 2 ^ dim) :
    rol dim x s = x * 2 ^ s % 2 ^ dim + x / 2 ^ (dim - s) := by
  have hsplit : 2 ^ dim = 2 ^ (dim - s) * 2 ^ s := by rw [← Nat.pow_add, Nat.sub_add_cancel hs]
  have hlow : x / 2 ^ (dim - s) < 2 ^ s := Nat.div_lt_of_lt_mul (hsplit ▸ hx)
  rw [rol, Nat.shiftLeft_eq, Nat.shiftRight_eq_div_pow, hsplit, Nat.mul_mod_mul_right, ← Nat.shiftLeft_eq,
    Nat.shiftLeft_add_eq_or_of_lt hlow]

theorem testBit_of_width_le {x width i : Nat} (hx : x < 2 ^ width) (hi : width ≤ i) : x.testBit i = false :=
  Nat.testBit_lt_two_pow (hx.trans_le (Nat.pow_le_pow_right (by decide) hi))

/-- The bits of a left rotation: the low `s` are the top bits of the word, the others have moved up by `s`. -/
theorem testBit_rol {dim x s : Nat} (hs : s ≤ dim) (hx : x < 2 ^ dim) (i : Nat) :
    (rol dim x s).testBit i =
      if i < s then x.testBit (i + (dim - s)) else (decide (i < dim) && x.testBit (i - s)) := by
  rw [rol, Nat.testBit_or, Nat.testBit_mod_two_pow, Nat.testBit_shiftLeft, Nat.testBit_shiftRight,
    Nat.add_comm (dim - s) i]
  split
  · next hlow => simp [Nat.not_le.mpr hlow]
  · next hhigh =>
    have hout : x.testBit (i + (dim - s)) = false := testBit_of_width_le hx (by omega)
    simp [hout, Nat.not_lt.mp hhigh]

/-- Rotating on by the rest of the width brings every bit back. -/
theorem rol_rol_sub {dim x s : Nat} (hs : s ≤ dim) (hx : x < 2 ^ dim) : rol dim (rol dim x s) (dim - s) = x := by
  refine Nat.eq_of_testBit_eq fun i => ?_
  rw [testBit_rol (Nat.sub_le dim s) (rol_lt hx s), Nat.sub_sub_self hs, testBit_rol hs hx, testBit_rol hs hx]
  by_cases hi : i < dim
  · by_cases hlow : i < dim - s
    · rw [if_pos hlow, if_neg (by omega), Nat.add_sub_cancel, decide_eq_true (by omega), Bool.true_and]
    · rw [if_neg hlow, if_pos (by omega), Nat.sub_add_cancel (by omega), decide_eq_true hi, Bool.true_and]
  · rw [if_neg (by omega), decide_eq_false hi, Bool.false_and, testBit_of_width_le hx (Nat.not_lt.mp hi)]

theorem ror_rol {dim x s : Nat} (hs : s ≤ dim) (hx : x < 2 ^ dim) : ror dim (rol dim x s) s = x := by
  rw [ror_eq_rol hs, rol_rol_sub hs hx]

theorem rol_ror {dim x s : Nat} (hs : s ≤ dim) (hx : x < 2 ^ dim) : rol dim (ror dim x s) s = x := by
  have hback := rol_rol_sub (Nat.sub_le dim s) hx
  rwa [Nat.sub_sub_self hs, ← ror_eq_rol hs] at hback

theorem rol_dim {dim x : Nat} (hx : x < 2 ^ dim) : rol dim x dim = x := by
  rw [rol_eq_add le_rfl hx, Nat.mul_mod_left, Nat.sub_self, Nat.pow_zero, Nat.div_one, Nat.zero_add]

theorem ror_dim {dim x : Nat} (hx : x < 2 ^ dim) : ror dim x dim = x := by
  conv_lhs => rw [← rol_dim hx]
  exact ror_rol le_rfl hx

/-- Settles O18: the right rotation is a left rotation by the rest of the width, of which the bits are known. -/
theorem rotationsUndoEachOther : Obligations.RotationsUndoEachOther := by
  intro dim x s _ hs hx
  have hror : ror dim x s = x * 2 ^ (dim - s) % 2 ^ dim + x / 2 ^ s := by
    rw [ror_eq_rol hs, rol_eq_add (Nat.sub_le dim s) hx, Nat.sub_sub_self hs]
  exact ⟨rol_eq_add hs hx, hror, rol_lt hx s, ror_lt hx s, ror_rol hs hx, rol_ror hs hx, rol_dim hx, ror_dim hx⟩

/-! ### The round functions -/

theorem rol_zero (dim s : Nat) : rol dim 0 s = 0 := by simp [rol]

theorem rol_ones {dim s : Nat} (hs : s ≤ dim) : rol dim (2 ^ dim - 1) s = 2 ^ dim - 1 := by
  refine Nat.eq_of_testBit_eq fun i => ?_
  rw [testBit_rol hs (Nat.sub_lt (Nat.two_pow_pos dim) (by decide))]
  simp only [Nat.testBit_two_pow_sub_one]
  split
  · exact decide_eq_decide.mpr (by omega)
  · rw [← Bool.decide_and]
    exact decide_eq_decide.mpr (by omega)

/-- Rotations are linear over XOR. -/
theorem rol_xor {dim x y s : Nat} (hs : s ≤ dim) (hx : x < 2 ^ dim) (hy : y < 2 ^ dim) :
    rol dim (x ^^^ y) s = rol dim x s ^^^ rol dim y s := by
  refine Nat.eq_of_testBit_eq fun i => ?_
  rw [Nat.testBit_xor, testBit_rol hs (Nat.xor_lt_two_pow hx hy), testBit_rol hs hx, testBit_rol hs hy]
  split
  · exact Nat.testBit_xor ..
  · rw [Nat.testBit_xor, Bool.and_xor_distrib_left]

theorem roundFn_zero (v : Variant) (dim : Nat) : roundFn v dim 0 = 0 := by
  cases v <;> simp [roundFn, fAnd, fXor, rol_zero]

/-- At all ones the three rotations are all ones: the AND variant cancels them, the XOR variant keeps one. -/
theorem roundFn_ones {dim : Nat} (hdim : 8 ≤ dim) :
    roundFn .standard dim (2 ^ dim - 1) = 0 ∧ roundFn .alternate dim (2 ^ dim - 1) = 2 ^ dim - 1 := by
  have h1 := rol_ones (dim := dim) (s := 1) (by omega)
  have h2 := rol_ones (dim := dim) (s := 2) (by omega)
  have h8 := rol_ones hdim
  constructor
  · rw [roundFn, fAnd, h1, h2, h8, Nat.and_self, Nat.xor_self]
  · rw [roundFn, fXor, h1, h2, h8, Nat.xor_self, Nat.zero_xor]

/-- The XOR variant is a sum of rotations, so it is linear over XOR. -/
theorem roundFn_alternate_xor {dim x y : Nat} (hdim : 8 ≤ dim) (hx : x < 2 ^ dim) (hy : y < 2 ^ dim) :
    roundFn .alternate dim (x ^^^ y) = roundFn .alternate dim x ^^^ roundFn .alternate dim y := by
  simp only [roundFn, fXor]
  rw [rol_xor (by omega) hx hy, rol_xor hdim hx hy, rol_xor (by omega) hx hy]
  ac_rfl

/-- Settles O19: the corners follow from those of rotations. With `x = 0x8000` and `y = 0x100` the bits that meet in the AND
come from different words. -/
theorem roundFunctionCorners : Obligations.RoundFunctionCorners := by
  refine ⟨fun _ _ => ⟨rfl, rfl⟩, ⟨by decide, by decide⟩, ⟨by decide, by decide⟩, fun dim hdim => ?_,
    0x8000, 0x100, by decide, by decide, by decide⟩
  obtain ⟨hand, hxor⟩ := roundFn_ones hdim
  exact ⟨roundFn_zero _ dim, roundFn_zero _ dim, hand, hxor, fun v _ => roundFn_lt v,
    fun _ _ => roundFn_alternate_xor hdim⟩

/-- A round undoes itself with the halves exchanged: the same round-function value and key are added twice. -/
theorem fround_fround (v : Variant) (dim a b k : Nat) :
    fround v dim (fround v dim a b k).2 (fround v dim a b k).1 k = (b, a) := by
  have hcancel : b ^^^ roundFn v dim a ^^^ k ^^^ roundFn v dim a ^^^ k = b := by
    rw [Nat.xor_right_comm (b ^^^ _), Nat.xor_xor_cancel_right, Nat.xor_xor_cancel_right]
  exact Prod.ext hcancel rfl

/-- Settles O20: the general clauses are lemmas about the round, the spec's examples are evaluated. -/
theorem feistelRoundUndoesItself : Obligations.FeistelRoundUndoesItself := by
  intro v dim a b k
  refine ⟨rfl, fround_fround v dim a b k, fun _ => ?_, by decide, by decide, by decide⟩
  rw [fround, roundFn_zero, Nat.xor_self, Nat.xor_self]

/-! ### The key schedule as a recurrence -/

/-- The bit of `Z` as the number the recurrence adds (00_scope.md R10). -/
theorem zBit_eq (z : BitVec 62) (j : Nat) : zBit z j = if z.getLsbD j then 1 else 0 := by
  rw [zBit]
  cases z.getLsbD j <;> rfl

/-- A step of the recurrence reads round keys of smaller index only (40_blockcipher.md R107). -/
theorem ksStep_congr (z : BitVec 62) (dim : Nat) {m i : Nat} {rk rk' : List Nat} (hm : 1 ≤ m) (hi : m ≤ i)
    (h : ∀ j, j < i → rk.getD j 0 = rk'.getD j 0) : ksStep z dim m i rk = ksStep z dim m i rk' := by
  simp only [ksStep, h (i - 1) (by omega), h (i - 3) (by omega), h (i - m) (by omega)]

/-- Further steps keep the round keys made so far. -/
theorem ksExtend_getD_of_lt (z : BitVec 62) (dim m n : Nat) :
    ∀ {rk : List Nat} {i : Nat}, i < rk.length → (ksExtend z dim m n rk).getD i 0 = rk.getD i 0 := by
  induction n with
  | zero => exact fun _ => rfl
  | succ n ih =>
    intro rk i hi
    rw [ksExtend, ih (by rw [List.length_append]; omega), List.getD_append _ _ _ _ hi]

/-- Every round key that is added solves the recurrence on the finished list. -/
theorem ksExtend_getD_of_ge (z : BitVec 62) (dim : Nat) {m : Nat} (hm : 1 ≤ m) (n : Nat) :
    ∀ {rk : List Nat} {i : Nat}, m ≤ rk.length → rk.length ≤ i → i < rk.length + n →
      (ksExtend z dim m n rk).getD i 0 = ksStep z dim m i (ksExtend z dim m n rk) := by
  induction n with
  | zero => intro rk i _ hlow hhigh; omega
  | succ n ih =>
    intro rk i hseed hlow hhigh
    have hlen : (rk ++ [ksStep z dim m rk.length rk]).length = rk.length + 1 := List.length_append
    rcases hlow.eq_or_lt with rfl | hlow
    · have hold : ∀ j, j < rk.length → rk.getD j 0 = (ksExtend z dim m (n + 1) rk).getD j 0 :=
        fun j hj => (ksExtend_getD_of_lt z dim m (n + 1) hj).symm
      rw [← ksStep_congr z dim hm hseed hold, ksExtend, ksExtend_getD_of_lt z dim m n (by omega),
        List.getD_append_right _ _ _ _ le_rfl, Nat.sub_self, List.getD_cons_zero]
    · exact ih (by omega) (by omega) (by omega)

theorem ksSeed_length (dim m key : Nat) : (ksSeed dim m key).length = m := by
  rw [ksSeed, List.length_map, List.length_range]

/-- The schedule begins with the key words (40_blockcipher.md R106). -/
theorem keySchedule_getD_of_lt (z : BitVec 62) (dim key : Nat) {m i : Nat} (hi : i < m) :
    (keySchedule z dim m key).getD i 0 = key / 2 ^ (i * dim) % 2 ^ dim := by
  have hlen : i < (ksSeed dim m key).length := by rwa [ksSeed_length]
  rw [keySchedule, ksExtend_getD_of_lt z dim m _ hlen, List.getD_eq_getElem _ _ hlen]
  simp only [ksSeed, List.getElem_map, List.getElem_range, keyWord, Nat.shiftRight_eq_div_pow]

/-- From the seed on the schedule solves the recurrence (40_blockcipher.md R107). -/
theorem keySchedule_getD_of_ge (z : BitVec 62) (dim key : Nat) {m i : Nat} (hm : 1 ≤ m) (hlow : m ≤ i)
    (hhigh : i < Config.numRounds) :
    (keySchedule z dim m key).getD i 0 = ksStep z dim m i (keySchedule z dim m key) := by
  have hlen := ksSeed_length dim m key
  exact ksExtend_getD_of_ge z dim hm _ hlen.ge (by omega) (by omega)

/-- Settles O21: the list is extended at its end only, so what each step read still stands in the finished list. -/
theorem scheduleFollowsTheRecurrence : Obligations.ScheduleFollowsTheRecurrence := by
  intro z dim m key hm hmax
  refine ⟨keySchedule_length z dim key hmax, fun i => keySchedule_getD_of_lt z dim key, fun i hlow hhigh => ?_⟩
  rw [← zBit_eq]
  exact keySchedule_getD_of_ge z dim key hm hlow hhigh

/-- A key in range is determined by its key words (20_memory.md R53). -/
theorem eq_of_keyWords_eq {dim m k1 k2 : Nat} (hdim : 0 < dim) (h1 : k1 < 2 ^ (m * dim)) (h2 : k2 < 2 ^ (m * dim))
    (hwords : ∀ i, i < m → k1 / 2 ^ (i * dim) % 2 ^ dim = k2 / 2 ^ (i * dim) % 2 ^ dim) : k1 = k2 := by
  refine Nat.eq_of_testBit_eq fun j => ?_
  by_cases hj : j < m * dim
  · have hbit := congrArg (Nat.testBit · (j % dim)) (hwords (j / dim) (Nat.div_lt_of_lt_mul (Nat.mul_comm m dim ▸ hj)))
    simpa only [Nat.testBit_mod_two_pow, Nat.testBit_div_two_pow, Nat.mod_lt j hdim, decide_true, Bool.true_and,
      Nat.mod_add_div'] using hbit
  · rw [testBit_of_width_le h1 (Nat.not_lt.mp hj), testBit_of_width_le h2 (Nat.not_lt.mp hj)]

/-- Settles O23: equal schedules begin with equal key words, which determine the key. -/
theorem keyChangesTheSchedule : Obligations.KeyChangesTheSchedule := by
  intro z bs ks k1 k2 hvalid h1 h2 hne hcells
  obtain ⟨-, hmin, hmax, hdvd, -, -, -⟩ := validCfg_iff.mp hvalid
  have hdim : 1 ≤ bs / 2 := by omega
  have hks : ks = ks / (bs / 2) * (bs / 2) := (Nat.div_mul_cancel (Nat.dvd_of_mod_eq_zero hdvd)).symm
  have hschedule := congrArg (List.map BitVec.toNat) hcells
  rw [scheduleCells_toNat z hdim hmax, scheduleCells_toNat z hdim hmax] at hschedule
  refine hne (eq_of_keyWords_eq hdim (hks ▸ h1) (hks ▸ h2) fun i hi => ?_)
  rw [← keySchedule_getD_of_lt z _ k1 hi, ← keySchedule_getD_of_lt z _ k2 hi, hschedule]

/-! ### The block functions as sequences of rounds -/

/-- A sequence that follows `f` upward over a list ends in the left fold. -/
theorem foldl_eq_of_follows {α β : Type} (f : β → α → β) (d : α) (l : List α) :
    ∀ x : Nat → β, (∀ i, i < l.length → x (i + 1) = f (x i) (l.getD i d)) → l.foldl f (x 0) = x l.length := by
  induction l with
  | nil => exact fun _ _ => rfl
  | cons a l ih =>
    intro x hx
    have hfirst : x 1 = f (x 0) a := hx 0 (Nat.succ_pos _)
    rw [List.foldl_cons, ← hfirst]
    exact ih (fun i => x (i + 1)) fun i hi => hx (i + 1) (Nat.succ_lt_succ hi)

/-- A sequence that follows `f` downward over a list ends in the right fold. -/
theorem foldr_eq_of_follows {α β : Type} (f : α → β → β) (d : α) (l : List α) :
    ∀ x : Nat → β, (∀ i, i < l.length → x i = f (l.getD i d) (x (i + 1))) → l.foldr f (x l.length) = x 0 := by
  induction l with
  | nil => exact fun _ _ => rfl
  | cons a l ih =>
    intro x hx
    have hlast : x 0 = f a (x 1) := hx 0 (Nat.succ_pos _)
    have hrest := ih (fun i => x (i + 1)) fun i hi => hx (i + 1) (Nat.succ_lt_succ hi)
    rw [List.foldr_cons, List.length_cons, hrest, hlast]

/-- Settles O24: the halves as they stand after each round are such a sequence. -/
theorem blockFunctionsRunTheRounds : Obligations.BlockFunctionsRunTheRounds := by
  intro v dim p rk l r
  have hsplit : (leftHalf dim p, rightHalf dim p) = (p / 2 ^ dim, p % 2 ^ dim) := by
    rw [leftHalf, rightHalf, Nat.shiftRight_eq_div_pow]
  refine ⟨fun hl hr hround => ?_, fun hl hr hround => ?_⟩
  · rw [encBlock, hsplit, ← hl, ← hr]
    exact congrArg (joinHalves dim) (foldl_eq_of_follows (encRound v dim) 0 rk (fun i => (l i, r i)) hround)
  · rw [decBlock, hsplit, ← hl, ← hr]
    exact congrArg (joinHalves dim) (foldr_eq_of_follows (decRound v dim) 0 rk (fun i => (l i, r i))
      fun i hi => congrArg Prod.swap (hround i hi))

/-! ### Decryption inverts encryption -/

theorem decRound_encRound (v : Variant) (dim : Nat) (lr : Nat × Nat) (k : Word) :
    decRound v dim k (encRound v dim lr k) = lr :=
  congrArg Prod.swap (fround_fround v dim lr.1 lr.2 k.toNat)

theorem encRound_decRound (v : Variant) (dim : Nat) (lr : Nat × Nat) (k : Word) :
    encRound v dim (decRound v dim k lr) k = lr :=
  fround_fround v dim lr.2 lr.1 k.toNat

theorem decRounds_encRounds (v : Variant) (dim : Nat) (rk : List Word) :
    ∀ lr, rk.foldr (decRound v dim) (rk.foldl (encRound v dim) lr) = lr := by
  induction rk with
  | nil => exact fun _ => rfl
  | cons k rk ih =>
    intro lr
    rw [List.foldl_cons, List.foldr_cons, ih, decRound_encRound]

theorem encRounds_decRounds (v : Variant) (dim : Nat) (lr : Nat × Nat) (rk : List Word) :
    rk.foldl (encRound v dim) (rk.foldr (decRound v dim) lr) = lr := by
  induction rk with
  | nil => rfl
  | cons k rk ih => rw [List.foldr_cons, List.foldl_cons, encRound_decRound, ih]

/-- Halves that are words are found again in the block they join to (20_memory.md R54). -/
theorem halves_joinHalves {dim : Nat} {lr : Nat × Nat} (h : HalvesInRange dim lr) :
    (leftHalf dim (joinHalves dim lr), rightHalf dim (joinHalves dim lr)) = lr := by
  obtain ⟨-, hr⟩ := h
  rw [joinHalves, ← Nat.shiftLeft_add_eq_or_of_lt hr, Nat.shiftLeft_eq, leftHalf, rightHalf,
    Nat.shiftRight_eq_div_pow, Nat.mul_comm, Nat.mul_add_div (Nat.two_pow_pos dim), Nat.div_eq_of_lt hr,
    Nat.mul_add_mod, Nat.mod_eq_of_lt hr, Nat.add_zero]

/-- A block is joined again from its halves (20_memory.md R54). -/
theorem joinHalves_halves (dim p : Nat) : joinHalves dim (leftHalf dim p, rightHalf dim p) = p := by
  have hr : rightHalf dim p < 2 ^ dim := Nat.mod_lt p (Nat.two_pow_pos dim)
  rw [joinHalves, ← Nat.shiftLeft_add_eq_or_of_lt hr, leftHalf, Nat.shiftRight_eq_div_pow, Nat.shiftLeft_eq, rightHalf,
    Nat.div_add_mod']

section

variable (v : Variant) {dim p : Nat} {rk : List Word} (hrk : ∀ k ∈ rk, k.toNat < 2 ^ dim) (hp : p < 2 ^ (2 * dim))

include hrk hp

theorem decBlock_encBlock : decBlock v dim rk (encBlock v dim rk p) = p := by
  rw [decBlock, encBlock, halves_joinHalves (encRounds_inRange v hrk (halves_inRange hp)), decRounds_encRounds,
    joinHalves_halves]

theorem encBlock_decBlock : encBlock v dim rk (decBlock v dim rk p) = p := by
  rw [decBlock, encBlock, halves_joinHalves (decRounds_inRange v (halves_inRange hp) hrk), encRounds_decRounds,
    joinHalves_halves]

end

/-- Settles O25: the rounds cancel one by one from the inside, and joining the halves loses nothing between. -/
theorem decryptInvertsEncrypt : Obligations.DecryptInvertsEncrypt := fun v _ _ _ _ hp hrk =>
  ⟨encBlock_lt v hrk hp, decBlock_lt v hrk hp, decBlock_encBlock v hrk hp, encBlock_decBlock v hrk hp⟩

end Sys2Proof.Machine

namespace Sys2Proof.Machine

open Sys2Proof

/-! ### The commands of the BC unit -/

/-- Settles O10: by definition, there is no condition (40_blockcipher.md R114). -/
theorem nopCompletes : Obligations.NopCompletes := ⟨rfl, fun _ => rfl⟩

/-- Where the host owns the units, a command of theirs is performed (30_encoding.md R79). -/
theorem ifAdmitted_of_unitsFree {s : State} (h : s.hstate = .idle ∨ s.hstate = .sent ∨ s.hstate = .closed) (t : State) :
    s.ifAdmitted s.hstate.unitsFree t = t := by
  rw [HState.unitsFree_iff.mpr h, ifAdmitted_true]

theorem bcCfgRule_of_valid {bs ks : Nat} (h : validCfg bs ks = true) (var : Variant) (s : State) :
    bcCfgRule bs ks var s = .ok (s.configure ⟨BitVec.ofNat 8 bs, BitVec.ofNat 12 ks, var⟩) := if_pos h

theorem bcCfgRule_of_invalid {bs ks : Nat} (h : ¬validCfg bs ks = true) (var : Variant) (s : State) :
    bcCfgRule bs ks var s = .error .reject := if_neg h

/-- Settles O11: the sizes of a valid configuration fit their fields of `CFG`. -/
theorem cfgCompletes : Obligations.CfgCompletes := by
  intro bs ks var s hfree
  have hexec : exec (.bcCfg bs ks var) s = .next (s.finishCommand (bcCfgRule bs ks var s)) :=
    congrArg _ (ifAdmitted_of_unitsFree hfree _)
  refine ⟨fun hvalid => ?_, fun hinvalid => ?_⟩
  · have ⟨_, _, hbs, _, _, _, hks⟩ := hvalid
    refine ⟨⟨BitVec.ofNat 8 bs, BitVec.ofNat 12 ks, var⟩, Nat.mod_eq_of_lt (by omega), Nat.mod_eq_of_lt (by omega),
      rfl, ?_⟩
    rw [hexec, bcCfgRule_of_valid (validCfg_iff.mpr hvalid)]
    rfl
  · rw [hexec, bcCfgRule_of_invalid (mt validCfg_iff.mp hinvalid)]
    rfl

/-- A command with a precondition and a range, where it is admitted: reject before the error before the writes
(60_exceptions.md R201). The hypothesis is the shape of the laws that say what each rule can do. -/
theorem guardedCommand_completes {s t : State} (hfree : s.hstate = .idle ∨ s.hstate = .sent ∨ s.hstate = .closed)
    {r : Except CommandStop State} {ready : Bool} {x bound : Nat} {e : WtError}
    (hr : (ready = true ∧ x < bound ∧ r = .ok t) ∨ (ready = false ∧ r = .error .reject) ∨
      (ready = true ∧ bound ≤ x ∧ r = .error (.raise e))) :
    let answer : Result := .next (s.ifAdmitted s.hstate.unitsFree (s.finishCommand r))
    (ready = true → x < bound → answer = .next { t with res := .ok }) ∧
    (ready = true → bound ≤ x → answer = .next { s with res := .error e }) ∧
    (ready = false → answer = .next { s with res := .rejected, ill := true }) := by
  rw [ifAdmitted_of_unitsFree hfree]
  rcases hr with ⟨rfl, hx, rfl⟩ | ⟨rfl, rfl⟩ | ⟨rfl, hx, rfl⟩
  · exact ⟨fun _ _ => rfl, fun _ h => absurd hx h.not_gt, nofun⟩
  · exact ⟨nofun, nofun, fun _ => rfl⟩
  · exact ⟨fun _ h => absurd h hx.not_gt, fun _ _ => rfl, nofun⟩

/-- Settles O12: the precondition is a valid configuration, the range that of the key. -/
theorem rekeyCompletes : Obligations.RekeyCompletes :=
  fun s hfree => guardedCommand_completes hfree (bcRekeyRule_cases s)

/-- Settles O13: the precondition is a schedule, the range that of a block. -/
theorem blockEncryptCompletes : Obligations.BlockEncryptCompletes :=
  fun s hfree => guardedCommand_completes hfree (blockRule_cases s.enc s)

/-- Settles O14: as O13, with the decryption under the same schedule. -/
theorem blockDecryptCompletes : Obligations.BlockDecryptCompletes :=
  fun s hfree => guardedCommand_completes hfree (blockRule_cases s.dec s)

/-- `BC.REKEY` answers `RES = 0` only where it is admitted and has expanded the key under a valid configuration. -/
theorem exec_bcRekey_ok {s t : State} (h : exec .bcRekey s = .next t) (hres : t.res = .ok) :
    (s.hstate = .idle ∨ s.hstate = .sent ∨ s.hstate = .closed) ∧ validCfg s.cfg.bs.toNat s.cfg.ks.toNat = true ∧
      t = { s.keyExp with res := .ok } := by
  obtain rfl := next_inj h
  rcases ifAdmitted_cases s s.hstate.unitsFree (s.finishCommand (bcRekeyRule s)) with ⟨hfree, ha⟩ | ⟨-, ha⟩ <;>
    rw [ha] at hres ⊢
  · rcases bcRekeyRule_cases s with ⟨hvalid, -, hr⟩ | ⟨-, hr⟩ | ⟨-, -, hr⟩ <;> rw [hr] at hres ⊢
    · exact ⟨HState.unitsFree_iff.mp hfree, hvalid, rfl⟩
    · cases hres
    · cases hres
  · cases hres

/-- A block encrypted and decrypted again under a schedule of words (40_blockcipher.md R117): `DOUT` holds the encrypted
block whole, and `DEC` inverts `ENC`. -/
theorem exec_bcDec_bcEnc {s : State} (hfree : s.hstate = .idle ∨ s.hstate = .sent ∨ s.hstate = .closed)
    (hk : s.kvalid = true) (hvalid : validCfg s.cfg.bs.toNat s.cfg.ks.toNat = true)
    (hwords : ∀ k ∈ s.rk, k.toNat < 2 ^ s.cfg.dim) (hdin : s.din.toNat < 2 ^ s.cfg.bs.toNat) :
    ∃ u v, exec .bcEnc s = .next u ∧ u.res = .ok ∧
      exec .bcDec { u with din := u.dout } = .next v ∧ v.res = .ok ∧ v.dout = s.din := by
  have hblock := two_mul_dim hvalid
  have hwide : 2 ^ s.cfg.bs.toNat ≤ 2 ^ 128 := by
    obtain ⟨heven, -, hmax, -⟩ := validCfg_iff.mp hvalid
    exact Nat.pow_le_pow_right (by decide) (by omega)
  have hp : s.din.toNat < 2 ^ (2 * s.cfg.dim) := by rwa [hblock]
  have henc : s.enc s.din.toNat < 2 ^ s.cfg.bs.toNat := hblock ▸ encBlock_lt _ hwords hp
  obtain ⟨q, hq⟩ : ∃ q, q = BitVec.ofNat 128 (s.enc s.din.toNat) := ⟨_, rfl⟩
  have hdout : q.toNat = s.enc s.din.toNat := hq ▸ Nat.mod_eq_of_lt (henc.trans_le hwide)
  have hback : s.dec q.toNat = s.din.toNat := hdout ▸ decBlock_encBlock _ hwords hp
  obtain ⟨hrunEnc, -⟩ := blockEncryptCompletes s hfree
  obtain ⟨hrunDec, -⟩ := blockDecryptCompletes { s with din := q, dout := q, res := .ok } hfree
  refine ⟨{ s with dout := q, res := .ok }, _, hq ▸ hrunEnc hk hdin, rfl, hrunDec hk (hdout.trans_lt henc), rfl, ?_⟩
  show BitVec.ofNat 128 (s.dec q.toNat) = s.din
  rw [hback, BitVec.ofNat_toNat, BitVec.setWidth_eq]

/-- Settles O16: the schedule just made is one of words. -/
theorem blockRoundTrip : Obligations.BlockRoundTrip := by
  intro s t hexec hres p hp
  obtain ⟨hfree, hvalid, rfl⟩ := exec_bcRekey_ok hexec hres
  obtain ⟨-, hmin, hmax, -⟩ := validCfg_iff.mp hvalid
  have hdim : 1 ≤ s.cfg.dim := le_trans (by decide) hmin
  exact exec_bcDec_bcEnc (s := { s.keyExp with res := .ok, din := p }) hfree rfl hvalid
    (mem_scheduleCells_lt _ hdim hmax _ _) hp

end Sys2Proof.Machine

namespace Sys2Proof.Machine

open Sys2Proof

/-! ### The shape of a block list -/

/-- What `CB_OK` asks of entry `i` of `n`: its value fits its width, and only the last entry may be narrower than 128 bits
(41_counterstream.md R130). -/
def FieldFits (b : Block) (n i : Nat) : Prop :=
  b.v < 2 ^ b.w ∧ (i + 1 < n → b.w = 128) ∧ (i + 1 = n → 1 ≤ b.w ∧ b.w ≤ 128)

theorem fieldFits_singleton_iff {b : Block} : FieldFits b 1 0 ↔ (1 ≤ b.w ∧ b.w ≤ 128) ∧ b.v < 2 ^ b.w := by
  simp [FieldFits, and_comm]

/-- An entry before the last one is a full field. -/
theorem fieldFits_of_lt_iff {b : Block} {n i : Nat} (h : i + 1 < n) : FieldFits b n i ↔ b.w = 128 ∧ b.v < 2 ^ b.w := by
  simp [FieldFits, h, h.ne, and_comm]

theorem fieldFits_succ_iff {b : Block} {n i : Nat} : FieldFits b (n + 1) (i + 1) ↔ FieldFits b n i := by
  simp [FieldFits]

/-- `CB_OK` entry by entry (41_counterstream.md R130). -/
theorem cbOk_iff (l : List Block) : cbOk l = true ↔ ∀ i b, l[i]? = some b → FieldFits b l.length i := by
  induction l with
  | nil => simp [cbOk]
  | cons b l ih =>
    rw [← Nat.and_forall_add_one]
    simp only [List.getElem?_cons_zero, List.getElem?_cons_succ, List.length_cons, fieldFits_succ_iff, ← ih,
      Option.some.injEq, forall_eq']
    cases l with
    | nil => simp [cbOk, fieldFits_singleton_iff]
    | cons c l => simp [cbOk, fieldFits_of_lt_iff]

/-! ### SPLIT -/

theorem split_length (v n : Nat) : (split v n).length = (n + 127) / 128 := by
  rw [split, List.length_map, List.length_range, numBlocks]

theorem split_getElem?_eq_some_iff {v n i : Nat} {b : Block} :
    (split v n)[i]? = some b ↔ i < (n + 127) / 128 ∧ splitField v n i = b := by
  simp [split, numBlocks, List.getElem?_eq_some_iff]

/-- A field with 128 bits left to cut is a full one. -/
theorem splitField_of_full {v n i : Nat} (h : 128 * (i + 1) ≤ n) :
    splitField v n i = ⟨128, v / 2 ^ (n - 128 * (i + 1)) % 2 ^ 128⟩ := by
  rw [splitField, if_neg (by rw [numBlocks]; omega), Nat.shiftRight_eq_div_pow]

/-- The last field has what is left after the full fields before it. -/
theorem splitField_last {v k w : Nat} (hpos : 1 ≤ w) (hmax : w ≤ 128) :
    splitField v (128 * k + w) k = ⟨w, v % 2 ^ w⟩ := by
  rcases hmax.eq_or_lt with rfl | hlt
  · rw [splitField_of_full (by omega), show 128 * k + 128 - 128 * (k + 1) = 0 by omega, Nat.pow_zero, Nat.div_one]
  · have hmod : (128 * k + w) % 128 = w := by omega
    rw [splitField, if_pos (by rw [numBlocks]; omega), hmod]

/-- `SPLIT` cuts its last field from the low end; the fields before it are those of the bits above (41_counterstream.md
R121). A full last field is the case `w = 128`. -/
theorem split_append_last {v k w : Nat} (hpos : 1 ≤ w) (hmax : w ≤ 128) :
    split v (128 * k + w) = split (v / 2 ^ w) (128 * k) ++ [⟨w, v % 2 ^ w⟩] := by
  have hblocks : numBlocks (128 * k + w) = k + 1 := by rw [numBlocks]; omega
  have hfull : numBlocks (128 * k) = k := by rw [numBlocks]; omega
  rw [split, split, hblocks, hfull, List.range_succ, List.map_append, List.map_singleton, splitField_last hpos hmax]
  congr 1
  refine List.map_congr_left fun i hi => ?_
  have hik := List.mem_range.mp hi
  rw [splitField_of_full (by omega), splitField_of_full (by omega), Nat.div_div_eq_div_mul, ← Nat.pow_add,
    show w + (128 * k - 128 * (i + 1)) = 128 * k + w - 128 * (i + 1) by omega]

/-- A bit length is that of no field, or of full fields and a last one of 1 to 128 bits. -/
theorem eq_zero_or_last_field (n : Nat) : n = 0 ∨ ∃ k w, 1 ≤ w ∧ w ≤ 128 ∧ n = 128 * k + w := by
  rcases Nat.eq_zero_or_pos n with rfl | hn
  · exact .inl rfl
  · exact .inr ⟨(n - 1) / 128, (n - 1) % 128 + 1, by omega, by omega, by omega⟩

/-- Joining the field of the low `w` bits to the bits above (41_counterstream.md R131). -/
theorem shiftLeft_or_mod_two_pow (v m w : Nat) : (v / 2 ^ w % 2 ^ m) <<< w ||| v % 2 ^ w = v % 2 ^ (m + w) := by
  rw [← Nat.shiftLeft_add_eq_or_of_lt (Nat.mod_lt v (Nat.two_pow_pos w)), Nat.shiftLeft_eq, Nat.add_comm m w, Nat.pow_add,
    Nat.mod_mul, Nat.mul_comm, Nat.add_comm]

/-- The fields rejoin to the low `n` bits they were cut from, field by field from the last one (41_counterstream.md R121). -/
theorem joinFields_split (n : Nat) : ∀ v, joinFields (0, 0) (split v n) = (v % 2 ^ n, n) := by
  induction n using Nat.strong_induction_on with
  | h n ih =>
    intro v
    rcases eq_zero_or_last_field n with rfl | ⟨k, w, hpos, hmax, rfl⟩
    · rw [Nat.pow_zero, Nat.mod_one]
      rfl
    · rw [split_append_last hpos hmax, joinFields_append, ih _ (by omega), shiftLeft_or_mod_two_pow]

/-- The fields are a list `CB_OK` admits (41_counterstream.md R121, R130). -/
theorem cbOk_split (v n : Nat) : cbOk (split v n) = true := by
  refine (cbOk_iff _).mpr fun i b hb => ?_
  obtain ⟨hi, rfl⟩ := split_getElem?_eq_some_iff.mp hb
  rw [split_length]
  rcases Nat.lt_or_ge n (128 * (i + 1)) with hlast | hfull
  · obtain ⟨w, rfl⟩ : ∃ w, n = 128 * i + w := ⟨n - 128 * i, by omega⟩
    rw [splitField_last (by omega) (by omega)]
    exact ⟨Nat.mod_lt _ (Nat.two_pow_pos w), fun h => absurd h (by omega), fun _ => (by omega : 1 ≤ w ∧ w ≤ 128)⟩
  · rw [splitField_of_full hfull]
    exact ⟨Nat.mod_lt _ (Nat.two_pow_pos _), fun _ => rfl, fun _ => ⟨Nat.le_add_left 1 127, le_rfl⟩⟩

/-- Settles O27: the last field holds the low bits, and what `CB_OK` asks of each entry bounds its value. -/
theorem splitCutsAndRejoins : Obligations.SplitCutsAndRejoins := by
  intro v n hv
  refine ⟨split_length v n, fun i hi => ?_, fun hpartial => ?_, fun b hb => ?_, cbOk_split v n, ?_⟩
  · exact split_getElem?_eq_some_iff.mpr ⟨by omega, splitField_of_full (by omega)⟩
  · have hlast : split v n = _ ++ [⟨n % 128, v % 2 ^ (n % 128)⟩] :=
      (congrArg (split v) (Nat.div_add_mod n 128).symm).trans (split_append_last (by omega) (by omega))
    rw [hlast, List.getLast?_concat]
  · obtain ⟨i, hi⟩ := List.mem_iff_getElem?.mp hb
    obtain ⟨hfits, -⟩ := (cbOk_iff _).mp (cbOk_split v n) i b hi
    exact hfits
  · rw [joinFields_split, Nat.mod_eq_of_lt hv]

/-! ### XFULL and XPART -/

theorem xpart_eq (k w v : Nat) : xpart k w v = v ^^^ (k / 2 ^ (128 - w)) := by
  rw [xpart, Nat.shiftRight_eq_div_pow]

/-- XOR-ing the same bits twice gives the field back (41_counterstream.md R134). -/
theorem xpart_xpart (k w v : Nat) : xpart k w (xpart k w v) = v := by
  rw [xpart, xpart, Nat.xor_xor_cancel_right]

/-- The leading `w` bits of a keystream block fit a field of `w` bits (41_counterstream.md R123). -/
theorem xpart_lt {k w v : Nat} (hk : k < 2 ^ 128) (hw : w ≤ 128) (hv : v < 2 ^ w) : xpart k w v < 2 ^ w := by
  have hblock : 2 ^ 128 = 2 ^ (128 - w) * 2 ^ w := by rw [← Nat.pow_add, Nat.sub_add_cancel hw]
  rw [xpart_eq]
  exact Nat.xor_lt_two_pow hv (Nat.div_lt_of_lt_mul (hblock ▸ hk))

/-- Settles O28: only the leading bits of the block meet the field. -/
theorem fieldXorKeepsWidth : Obligations.FieldXorKeepsWidth := fun k w v hk _ hw hv =>
  ⟨xpart_eq k w v, xpart_lt hk hw hv, xpart_xpart k w v, rfl⟩

/-! ### Streams -/

theorem xorFields_widths (ks : Nat → Nat) (l : List Block) :
    ∀ j, (xorFields ks j l).map Block.w = l.map Block.w := by
  induction l with
  | nil => exact fun _ => rfl
  | cons b l ih => exact fun j => congrArg (b.w :: ·) (ih (j + 1))

theorem xorFields_length (ks : Nat → Nat) (j : Nat) (l : List Block) : (xorFields ks j l).length = l.length := by
  rw [← List.length_map (f := Block.w), xorFields_widths, List.length_map]

/-- Under the same keystream decryption undoes encryption (41_counterstream.md R134). -/
theorem xorFields_xorFields (ks : Nat → Nat) (l : List Block) : ∀ j, xorFields ks j (xorFields ks j l) = l := by
  induction l with
  | nil => exact fun _ => rfl
  | cons b l ih =>
    intro j
    rw [xorFields, xorFields, ih, xpart_xpart]

/-- Encryption keeps the shape of a list where the keystream it uses is one of 128-bit blocks. -/
theorem cbOk_xorFields {ks : Nat → Nat} {l : List Block} (hks : ∀ i, i < l.length → ks i < 2 ^ 128)
    (hl : cbOk l = true) : cbOk (xorFields ks 0 l) = true := by
  rw [cbOk_iff] at hl ⊢
  intro i b hb
  rw [xorFields_getElem?, Nat.zero_add] at hb
  obtain ⟨c, hc, rfl⟩ := Option.map_eq_some_iff.mp hb
  obtain ⟨hi, -⟩ := List.getElem?_eq_some_iff.mp hc
  obtain ⟨hfits, hfull, hlast⟩ := hl i c hc
  have hmax : c.w ≤ 128 := by omega
  rw [xorFields_length]
  exact ⟨xpart_eq (ks i) c.w c.v ▸ xpart_lt (hks i hi) hmax hfits, hfull, hlast⟩

/-- The joined width is the sum of the widths (41_counterstream.md R131). -/
theorem joinFields_snd (l : List Block) : ∀ pn, (joinFields pn l).2 = pn.2 + (l.map Block.w).sum := by
  induction l with
  | nil => exact fun _ => rfl
  | cons b l ih =>
    intro pn
    rw [joinFields, ih, List.map_cons, List.sum_cons, Nat.add_assoc]

theorem split_widths_sum (v n : Nat) : ((split v n).map Block.w).sum = n := by
  have hwidth := joinFields_snd (split v n) (0, 0)
  rw [joinFields_split, Nat.zero_add] at hwidth
  exact hwidth.symm

theorem lt_two_pow_bitlen (p : Nat) : p < 2 ^ bitlen p := by
  rcases eq_or_ne p 0 with rfl | hp
  · exact Nat.one_pos
  · obtain ⟨-, hlt⟩ := (bitlen_eq_iff hp _).mp rfl
    exact hlt

theorem streamEnc_length (ks : Nat → Nat) (p : Nat) : (streamEnc ks p).length = (bitlen p + 127) / 128 := by
  rw [streamEnc, xorFields_length, split_length]

theorem cbOk_streamEnc {ks : Nat → Nat} {p : Nat} (hks : ∀ i, i < (bitlen p + 127) / 128 → ks i < 2 ^ 128) :
    cbOk (streamEnc ks p) = true :=
  cbOk_xorFields (by rwa [split_length]) (cbOk_split _ _)

theorem joinFields_xorFields_streamEnc (ks : Nat → Nat) (p : Nat) :
    joinFields (0, 0) (xorFields ks 0 (streamEnc ks p)) = (p, bitlen p) := by
  rw [streamEnc, xorFields_xorFields, joinFields_split, Nat.mod_eq_of_lt (lt_two_pow_bitlen p)]

/-- `STREAM_DEC` gives the message of `STREAM_ENC` back (41_counterstream.md R134). -/
theorem streamDec_streamEnc (ks : Nat → Nat) (p : Nat) : streamDec ks (streamEnc ks p) = .ok (p, bitlen p) := by
  rw [streamDec, joinFields_xorFields_streamEnc]
  exact if_pos rfl

/-- Settles O29: the XOR cancels field by field, and the fields rejoin to the message. -/
theorem streamRoundTrip : Obligations.StreamRoundTrip := by
  have hentry : ∀ (ks : Nat → Nat) (l : List Block) (i : Nat),
      (xorFields ks 0 l)[i]? = (l[i]?).map fun b => ⟨b.w, b.v ^^^ (ks i / 2 ^ (128 - b.w))⟩ := fun ks l i => by
    rw [xorFields_getElem?, Nat.zero_add]
  refine ⟨hentry, rfl, fun l b => joinFields_append l b (0, 0), fun ks p => hentry ks _, fun ks p hks =>
    ⟨streamDec_streamEnc ks p, cbOk_streamEnc fun i _ => hks i, streamEnc_length ks p, ?_⟩⟩
  rw [streamEnc, xorFields_widths, split_widths_sum]

end Sys2Proof.Machine

namespace Sys2Proof.Machine

open Sys2Proof

/-! ### The keystream of the protocol -/

/-- `KSB` under the protocol's configuration and the schedule of `KEY` (41_counterstream.md R122, R128). -/
def State.protoStream (s : State) (i : Nat) : Nat :=
  encBlock s.env.protoVariant 64 (scheduleCells s.env.z 64 4 s.key.toNat) (s.nonce.toNat + i)

/-- What `CS_INIT` writes, register by register (41_counterstream.md R128). -/
theorem protoKeyed_eq (s : State) : s.protoKeyed =
    { s with cfg := ⟨128, 256, s.env.protoVariant⟩, rk := scheduleCells s.env.z 64 4 s.key.toNat, kvalid := true } := by
  rw [State.protoKeyed, State.keyExp, protoCfg_dim, protoCfg_m]
  rfl

/-- After `CS_INIT` the keystream is that of the protocol. -/
theorem protoKeyed_ksb (s : State) : s.protoKeyed.ksb = s.protoStream := by
  funext i
  simp only [State.ksb, State.enc, State.protoKeyed, State.keyExp_cfg, State.keyExp_rk, State.keyExp_nonce,
    protoCfg_dim, protoCfg_m]
  rfl

theorem protoStream_congr {s t : State} (hkey : s.key = t.key) (hnonce : s.nonce = t.nonce) (hz : s.env.z = t.env.z)
    (hvar : s.env.protoVariant = t.env.protoVariant) : s.protoStream = t.protoStream := by
  funext i
  rw [State.protoStream, State.protoStream, hkey, hnonce, hz, hvar]

/-- While the counter is in range the keystream is one of 128-bit blocks. -/
theorem protoStream_lt {s : State} {i : Nat} (h : s.nonce.toNat + i < 2 ^ 128) : s.protoStream i < 2 ^ 128 :=
  encBlock_lt (dim := 64) _ (mem_scheduleCells_lt _ (by decide) le_rfl _ _) h

/-- The counter range of R127 without the case of no block: a nonce alone is always in range. -/
theorem ctrOverflow_iff {nonce : BitVec 128} {blocks : Nat} :
    ctrOverflow nonce blocks = true ↔ 2 ^ 128 < nonce.toNat + blocks := by
  have hnonce := nonce.isLt
  simp only [ctrOverflow, Bool.and_eq_true, decide_eq_true_iff]
  omega

theorem ctrOverflow_eq_false_iff {nonce : BitVec 128} {blocks : Nat} :
    ctrOverflow nonce blocks = false ↔ nonce.toNat + blocks ≤ 2 ^ 128 := by
  rw [← Bool.not_eq_true, ctrOverflow_iff, Nat.not_lt]

/-! ### CS.ENC -/

theorem Env.todTaken_z (e : Env) : e.todTaken.z = e.z := by
  unfold Env.todTaken
  split <;> rfl

theorem Env.todTaken_protoVariant (e : Env) : e.todTaken.protoVariant = e.protoVariant := by
  unfold Env.todTaken
  split <;> rfl

/-- The state after `NONCE_GEN` with the sample the port delivers (41_counterstream.md R126). -/
def State.stamped (s : State) : State := { s.todTaken with todLast := s.todSample, nonce := nonceOf s.todSample }

theorem stamped_protoKeyed (s : State) : s.stamped.protoKeyed =
    { s with
      todLast := s.todSample, nonce := nonceOf s.todSample, cfg := ⟨128, 256, s.env.protoVariant⟩,
      rk := scheduleCells s.env.z 64 4 s.key.toNat, kvalid := true, env := s.env.todTaken } := by
  rw [protoKeyed_eq, ← s.env.todTaken_z, ← s.env.todTaken_protoVariant, State.stamped, State.todTaken]

theorem stamped_protoStream (s : State) : s.stamped.protoStream = fun i =>
    encBlock s.env.protoVariant 64 (scheduleCells s.env.z 64 4 s.key.toNat) (s.todSample.toNat * 2 ^ 64 + i) := by
  rw [← nonceOf_toNat, ← s.env.todTaken_z, ← s.env.todTaken_protoVariant]
  rfl

/-- What a successful `CS.ENC` leaves (41_counterstream.md R129). -/
def State.csEncrypted (s : State) : State :=
  { s.stamped.protoKeyed with
    cblk := streamEnc s.stamped.protoStream s.msg, cbn := numBlocks (bitlen s.msg), mlen := bitlen s.msg, res := .ok }

/-- `CS.ENC` where it is admitted: in the counter range it succeeds, beyond it takes `DomainError` (41_counterstream.md
R129); the sample is used up either way (log 3). -/
theorem exec_csEnc_cases {s : State} (hfree : s.hstate = .idle ∨ s.hstate = .sent ∨ s.hstate = .closed) :
    (s.todSample.toNat * 2 ^ 64 + numBlocks (bitlen s.msg) ≤ 2 ^ 128 ∧ exec .csEnc s = .next s.csEncrypted) ∨
    (2 ^ 128 < s.todSample.toNat * 2 ^ 64 + numBlocks (bitlen s.msg) ∧
      exec .csEnc s = .next (s.todTaken.takeError .command .domainError)) := by
  have hexec : exec .csEnc s = .next (s.todTaken.finishCommand (csEncRule s.todSample s.todTaken)) :=
    congrArg _ (ifAdmitted_of_unitsFree hfree _)
  rw [hexec, ← nonceOf_toNat]
  rcases csEncRule_cases s.todSample s.todTaken with ⟨hctr, hr⟩ | ⟨hctr, hr⟩ <;> rw [hr]
  · refine .inl ⟨ctrOverflow_eq_false_iff.mp hctr, ?_⟩
    rw [State.csEncrypted, ← protoKeyed_ksb]
    rfl
  · exact .inr ⟨ctrOverflow_iff.mp hctr, rfl⟩

/-- Settles O30: the two cases are those of the counter range, and up to `2^64` blocks fit above any timestamp. -/
theorem streamEncryptCompletes : Obligations.StreamEncryptCompletes := by
  intro s hfree t rk ks n
  refine ⟨fun hin => ?_, fun hout => ?_, fun hblocks => ?_⟩
  · rcases exec_csEnc_cases hfree with ⟨-, hexec⟩ | ⟨hout, -⟩
    · rw [hexec, State.csEncrypted, stamped_protoKeyed, stamped_protoStream, nonceOf, numBlocks]
    · exact absurd hin hout.not_ge
  · rcases exec_csEnc_cases hfree with ⟨hin, -⟩ | ⟨-, hexec⟩
    · exact absurd hin hout.not_ge
    · exact hexec
  · have ht := t.isLt
    omega

/-- `CS.ENC` answers `RES = 0` only in the counter range, with the writes of R129. -/
theorem exec_csEnc_ok {s t : State} (h : exec .csEnc s = .next t) (hres : t.res = .ok) :
    s.todSample.toNat * 2 ^ 64 + numBlocks (bitlen s.msg) ≤ 2 ^ 128 ∧ t = s.csEncrypted := by
  cases hfree : s.hstate.unitsFree with
  | true =>
    rcases exec_csEnc_cases (HState.unitsFree_iff.mp hfree) with ⟨hin, hexec⟩ | ⟨-, hexec⟩
    · exact ⟨hin, next_inj (hexec.symm.trans h)⟩
    · cases next_inj (hexec.symm.trans h)
      cases hres
  | false =>
    cases next_inj ((exec_unitsCommand_rejected (.inl (by decide)) hfree).symm.trans h)
    cases hres

/-! ### CS.DEC -/

theorem blocks_length (s : State) : s.blocks.length = s.cbn := by
  rw [State.blocks, List.length_map, List.length_range]

theorem blocks_getElem? (s : State) {i : Nat} (hi : i < s.cbn) :
    s.blocks[i]? = some (s.cblk.getD i (Config.unlistedBlock i)) := by
  rw [State.blocks, List.getElem?_map, List.getElem?_range hi, Option.map_some, State.blockAt, List.getD_eq_getElem?_getD]

/-- With `CBN` entries written, the block list is all of `CBLK`. -/
theorem blocks_of_length {s : State} (h : s.cblk.length = s.cbn) : s.blocks = s.cblk := by
  refine List.ext_getElem ((blocks_length s).trans h.symm) fun i hi hi' => ?_
  refine Option.some.inj ?_
  rw [← List.getElem?_eq_getElem hi, blocks_getElem? s (h ▸ hi'), List.getD_eq_getElem _ _ hi']

/-- The part `CS.DEC` shares with step `DECRYPT_PAYLOAD`: the counter range, then the stream (41_counterstream.md R133). -/
theorem streamDecrypt_eq (l : List Block) (s : State) : streamDecrypt l s =
    if 2 ^ 128 < s.nonce.toNat + l.length then .error .domainError
    else (streamDec s.protoStream l).map fun pn => { s.protoKeyed with msg := pn.1, mlen := pn.2 } := by
  rw [← protoKeyed_ksb]
  rcases streamDecrypt_cases l s with ⟨p, n, hctr, hdec, hr⟩ | ⟨hctr, hr⟩ | ⟨hctr, hdec, hr⟩
  · rw [hr, if_neg (ctrOverflow_eq_false_iff.mp hctr).not_gt, State.protoKeyed, hdec]
    rfl
  · rw [hr, if_pos (ctrOverflow_iff.mp hctr)]
  · rw [hr, if_neg (ctrOverflow_eq_false_iff.mp hctr).not_gt, State.protoKeyed, hdec]
    rfl

/-- The order of the tests of `CS.DEC` (41_counterstream.md R133, 60_exceptions.md R201). -/
theorem csDecRule_eq (s : State) : csDecRule s =
    if cbOk s.blocks = true then (streamDecrypt s.blocks s).mapError .raise else .error (.raise .framingError) := by
  rcases csDecRule_cases s with ⟨hok, u, hu, hr⟩ | ⟨hok, hr⟩ | ⟨hok, e, he, hr⟩
  · rw [hr, if_pos hok, hu]
    rfl
  · rw [hr, if_neg (Bool.eq_false_iff.mp hok)]
  · rw [hr, if_pos hok, he]
    rfl

theorem exec_csDec {s : State} (hfree : s.hstate = .idle ∨ s.hstate = .sent ∨ s.hstate = .closed) :
    exec .csDec s = .next (s.finishCommand (csDecRule s)) :=
  congrArg _ (ifAdmitted_of_unitsFree hfree _)

theorem csDecRule_of_malformed {s : State} (h : cbOk s.blocks = false) :
    csDecRule s = .error (.raise .framingError) := by
  rw [csDecRule_eq, if_neg (Bool.eq_false_iff.mp h)]

theorem csDecRule_of_overflow {s : State} (hok : cbOk s.blocks = true) (hctr : 2 ^ 128 < s.nonce.toNat + s.cbn) :
    csDecRule s = .error (.raise .domainError) := by
  rw [csDecRule_eq, if_pos hok, streamDecrypt_eq, blocks_length, if_pos hctr]
  rfl

/-- A well-shaped list in the counter range is decrypted as its stream is. -/
theorem csDecRule_of_inRange {s : State} (hok : cbOk s.blocks = true) (hctr : s.nonce.toNat + s.cbn ≤ 2 ^ 128) :
    csDecRule s = ((streamDec s.protoStream s.blocks).map fun pn =>
      { s.protoKeyed with msg := pn.1, mlen := pn.2 }).mapError .raise := by
  rw [csDecRule_eq, if_pos hok, streamDecrypt_eq, blocks_length, if_neg hctr.not_gt]

/-- Settles O31: the tests in their order; the last one is that of `STREAM_DEC`. -/
theorem streamDecryptCompletes : Obligations.StreamDecryptCompletes := by
  refine ⟨cbOk_iff, fun s => ⟨blocks_length s, fun i => blocks_getElem? s⟩, ?_⟩
  intro s hfree rk ks pn
  rw [exec_csDec hfree]
  refine ⟨fun hbad => ?_, fun hok hctr => ?_, fun hok hctr hbits => ?_, fun hok hctr hbits => ?_⟩
  · rw [csDecRule_of_malformed hbad]
    rfl
  · rw [csDecRule_of_overflow hok hctr]
    rfl
  · have hdec : streamDec s.protoStream s.blocks = .error .framingError := if_neg hbits
    rw [csDecRule_of_inRange hok hctr, hdec]
    rfl
  · have hdec : streamDec s.protoStream s.blocks = .ok pn := if_pos hbits
    rw [csDecRule_of_inRange hok hctr, hdec]
    show Host.Outcome.next { s.protoKeyed with msg := pn.1, mlen := pn.2, res := .ok } = _
    rw [protoKeyed_eq]

/-! ### CS.ENC, then CS.DEC -/

/-- A list encrypted under the keystream of the state is decrypted to its message (41_counterstream.md R134). -/
theorem csDecRule_of_streamEnc {s : State} {p : Nat} (hl : s.blocks = streamEnc s.protoStream p)
    (hctr : s.nonce.toNat + s.cbn ≤ 2 ^ 128) :
    csDecRule s = .ok { s.protoKeyed with msg := p, mlen := bitlen p } := by
  have hcbn : (bitlen p + 127) / 128 = s.cbn := by rw [← blocks_length, hl, streamEnc_length]
  have hok : cbOk s.blocks = true := hl ▸ cbOk_streamEnc fun i hi => protoStream_lt (by omega)
  rw [csDecRule_of_inRange hok hctr, hl, streamDec_streamEnc]
  rfl

/-- Settles O32: the decrypting state has the encrypting one's keystream, and its block list is all that was written. -/
theorem csEncThenDecRestoresMessage : Obligations.CsEncThenDecRestoresMessage := by
  intro s t u henc hres hkey hnonce hcblk hcbn hz hvar hfree
  obtain ⟨hctr, rfl⟩ := exec_csEnc_ok henc hres
  have hstream : u.protoStream = s.stamped.protoStream := protoStream_congr hkey hnonce hz hvar
  have hlist : u.blocks = streamEnc u.protoStream s.msg := by
    have hlen : u.cblk.length = u.cbn := by
      rw [hcblk, hcbn]
      exact streamEnc_length _ _
    rw [blocks_of_length hlen, hcblk, hstream]
    rfl
  have hrange : u.nonce.toNat + u.cbn ≤ 2 ^ 128 := by
    rw [hnonce, hcbn]
    exact (nonceOf_toNat s.todSample).symm ▸ hctr
  rw [exec_csDec hfree, csDecRule_of_streamEnc hlist hrange]
  exact ⟨_, rfl, rfl, rfl, rfl⟩

end Sys2Proof.Machine

namespace Sys2Proof.Machine

open Sys2Proof

/-! ### The commands of the HS unit -/

/-- Settles O34: the two clauses are the branches of the rule, and `DISCARD(full)` spelled out. -/
theorem startCompletes : Obligations.StartCompletes := by
  intro s hfree
  have hexec : exec .hsStart s = .next (s.finishCommand (hsStartRule s)) :=
    congrArg _ (ifAdmitted_of_unitsFree hfree _)
  rw [hexec]
  refine ⟨fun hpub hpriv => ?_, fun hzero => ?_⟩
  · rw [hsStartRule, if_neg (by omega)]
    rfl
  · rw [hsStartRule, if_pos hzero]
    rfl

/-- Settles O35: the guard is the state, and the rule has no condition. -/
theorem rxCompletes : Obligations.RxCompletes := by
  refine fun s => ⟨fun hawait => ?_, exec_hsRx_rejected⟩
  show Host.Outcome.next (s.ifAdmitted (decide (s.hstate = .awaitRequest)) _) = _
  rw [decide_eq_true hawait, ifAdmitted_true, finishCommand_ok]

/-- Settles O36: the command is admitted in every state, and its rule asks only whether the state is `IDLE`. -/
theorem abortCompletes : Obligations.AbortCompletes := by
  refine fun s => ⟨fun hidle => ?_, fun hbusy => ?_⟩
  · show Host.Outcome.next (s.finishCommand (.ok (if s.hstate = .idle then _ else _))) = _
    rw [if_pos hidle, finishCommand_ok]
  · show Host.Outcome.next (s.finishCommand (.ok (if s.hstate = .idle then _ else _))) = _
    rw [if_neg hbusy]
    rfl

/-! ### The step a state selects -/

section Selected

variable {s : State}

theorem exec_stepValidateRequest (h : s.hstate = .validateRequest) :
    exec .stepValidateRequest s = .next (s.finishStep (validateRequestRule s)) :=
  congrArg Host.Outcome.next (ifSelected_pos _ h)

theorem exec_stepDecryptSessionKey (h : s.hstate = .decryptSessionKey) :
    exec .stepDecryptSessionKey s = .next (s.finishStep (decryptSessionKeyRule s)) :=
  congrArg Host.Outcome.next (ifSelected_pos _ h)

theorem exec_stepDecryptPayload (h : s.hstate = .decryptPayload) :
    exec .stepDecryptPayload s = .next (s.finishStep (decryptPayloadRule s)) :=
  congrArg Host.Outcome.next (ifSelected_pos _ h)

theorem exec_stepVerifySignature (h : s.hstate = .verifySignature) :
    exec .stepVerifySignature s = .next (s.finishStep (verifySignatureRule s)) :=
  congrArg Host.Outcome.next (ifSelected_pos _ h)

theorem exec_stepVerifyHash (h : s.hstate = .verifyHash) :
    exec .stepVerifyHash s = .next (s.finishStep (verifyHashRule s)) :=
  congrArg Host.Outcome.next (ifSelected_pos _ h)

theorem exec_stepBuildResponse (h : s.hstate = .buildResponse) :
    exec .stepBuildResponse s = .next (s.rngTaken.finishStep
      (buildResponseRule s.env.rngRaw (responseBody s.env s.env.rngRaw) s.rngTaken)) :=
  congrArg Host.Outcome.next (ifSelected_pos _ h)

end Selected

/-! ### Texts -/

/-- Bytes that are no text and the empty text have no structure where the parser refuses the empty text (log 21). -/
theorem bind_parse_eq_none {α : Type} {text : Option Text} {parse : Text → Option α} (hparse : parse [] = none)
    (h : text = none ∨ text = some []) : text.bind parse = none := by
  rcases h with rfl | rfl
  · rfl
  · exact hparse

/-- The number 0 has no bytes, so its text is empty (43_external_primitives.md R172). -/
theorem utf8Decode_leBytes_zero : utf8Decode (leBytes 0) = some [] := rfl

theorem Env.parseRequest_eq_none (e : Env) {body : Bytes} (h : body = [] ∨ utf8Decode body = none) :
    e.parseRequest body = none := by
  rcases h with rfl | h
  · rfl
  · simp [Env.parseRequest, h]

/-- The order of the tests of R151: text, then structure. -/
theorem recoveredKeyData_eq (s : State) : recoveredKeyData s =
    ((utf8Decode (leBytes (modpow s.rqSk s.privD s.privN))).bind s.env.parseKeydata).elim
      (.error .keyRecoveryError) .ok := by
  unfold recoveredKeyData
  cases utf8Decode (leBytes (modpow s.rqSk s.privD s.privN)) with
  | none => rfl
  | some text => cases h : s.env.parseKeydata text <;> simp [h]

/-- The order of the tests of R153 on the decrypted message: text, then structure. -/
theorem decodedPayload_eq (s : State) : decodedPayload s =
    ((utf8Decode (leBytes s.msg)).bind s.env.parsePayload).elim (.error .payloadDecodeError) .ok := by
  unfold decodedPayload
  cases utf8Decode (leBytes s.msg) with
  | none => rfl
  | some text => cases h : s.env.parsePayload text <;> simp [h]

/-! ### VALIDATE_REQUEST -/

section Received

variable {s : State} {body : Bytes} {r : Request}

theorem receivedRequest_of_bad_frame {e : WtError} (h : frameCheck (s.rxbuf.slice s.rxlen) typeRequest = .error e) :
    receivedRequest s = .error .framingError := by
  rw [receivedRequest, h, frameCheck_error h]

theorem receivedRequest_of_unparsable (h : frameCheck (s.rxbuf.slice s.rxlen) typeRequest = .ok body)
    (hbody : s.env.parseRequest body = none) : receivedRequest s = .error .framingError := by
  simp only [receivedRequest, h, hbody]

theorem receivedRequest_of_wide (h : frameCheck (s.rxbuf.slice s.rxlen) typeRequest = .ok body)
    (hbody : s.env.parseRequest body = some r) (hwide : 2 ^ r.plbits ≤ r.pl) :
    receivedRequest s = .error .framingError := by
  simp only [receivedRequest, h, hbody, if_pos hwide]

theorem receivedRequest_of_narrow (h : frameCheck (s.rxbuf.slice s.rxlen) typeRequest = .ok body)
    (hbody : s.env.parseRequest body = some r) (hnarrow : r.pl < 2 ^ r.plbits) : receivedRequest s = .ok r := by
  simp only [receivedRequest, h, hbody, if_neg hnarrow.not_ge]

end Received

/-- Settles O38: every outcome but a narrow request is the same error. -/
theorem validateRequestCompletes : Obligations.ValidateRequestCompletes := by
  intro s hs
  have hrefused (h : receivedRequest s = .error .framingError) :
      exec .stepValidateRequest s = .next (s.takeError .sequencer .framingError) := by
    rw [exec_stepValidateRequest hs, validateRequestRule, h, finishStep_error]
  refine ⟨fun body r hframe hr hnarrow => ?_, fun e he => hrefused (receivedRequest_of_bad_frame he),
    fun body hframe hnone => hrefused (receivedRequest_of_unparsable hframe hnone),
    fun body r hframe hr hwide => hrefused (receivedRequest_of_wide hframe hr hwide),
    fun body hframe hbody => hrefused (receivedRequest_of_unparsable hframe (s.env.parseRequest_eq_none hbody))⟩
  rw [exec_stepValidateRequest hs, validateRequestRule, receivedRequest_of_narrow hframe hr hnarrow, finishStep_ok]

/-! ### modpow -/

/-- Square and multiply keeps `acc * b ^ e` modulo `n` (43_external_primitives.md R170). -/
theorem modpowLoop_eq (n k : Nat) :
    ∀ b e acc, e < 2 ^ k → acc < n → modpowLoop n k b e acc = acc * b ^ e % n := by
  induction k with
  | zero =>
    intro b e acc he hacc
    obtain rfl : e = 0 := by omega
    rw [modpowLoop, pow_zero, mul_one, Nat.mod_eq_of_lt hacc]
  | succ k ih =>
    intro b e acc he hacc
    have hhalf : e / 2 < 2 ^ k := by omega
    have hsquare : (b * b % n) ^ (e / 2) ≡ b ^ (2 * (e / 2)) [MOD n] := by
      rw [pow_mul, sq]
      exact (Nat.mod_modEq _ n).pow _
    have hn : 0 < n := by omega
    rw [modpowLoop]
    rcases Nat.mod_two_eq_zero_or_one e with hbit | hbit
    · rw [if_neg (by omega), ih _ _ _ hhalf hacc]
      have he2 : 2 * (e / 2) = e := by omega
      rw [he2] at hsquare
      exact hsquare.mul_left acc
    · rw [if_pos hbit, ih _ _ _ hhalf (Nat.mod_lt _ hn)]
      have he2 : e = 2 * (e / 2) + 1 := by omega
      calc acc * b % n * (b * b % n) ^ (e / 2)
          ≡ acc * b * b ^ (2 * (e / 2)) [MOD n] := (Nat.mod_modEq _ n).mul hsquare
        _ = acc * b ^ (2 * (e / 2) + 1) := by ring
        _ = acc * b ^ e := by rw [← he2]

theorem modpow_eq_pow_mod (b e : Nat) {n : Nat} (hn : 1 ≤ n) : modpow b e n = b ^ e % n := by
  rw [modpow, if_neg (by omega), modpowLoop_eq n _ _ _ _ (lt_two_pow_bitlen e) (Nat.mod_lt _ hn)]
  calc 1 % n * (b % n) ^ e ≡ 1 * b ^ e [MOD n] := (Nat.mod_modEq 1 n).mul ((Nat.mod_modEq b n).pow e)
    _ = b ^ e := one_mul _

/-! ### DECRYPT_SESSION_KEY -/

/-- Settles O39: `modpow` is the power, and the text and its structure decide. -/
theorem decryptSessionKeyCompletes : Obligations.DecryptSessionKeyCompletes := by
  intro s hs hn text
  have hrec : recoveredKeyData s = (text.bind s.env.parseKeydata).elim (.error .keyRecoveryError) .ok := by
    rw [recoveredKeyData_eq, modpow_eq_pow_mod _ _ hn]
  have hrefused : text.bind s.env.parseKeydata = none →
      exec .stepDecryptSessionKey s = .next (s.takeError .sequencer .keyRecoveryError) := by
    intro hnone
    rw [exec_stepDecryptSessionKey hs, decryptSessionKeyRule, hrec, hnone]
    rfl
  refine ⟨fun kd hkd => ?_, hrefused, fun hempty => hrefused (bind_parse_eq_none rfl ?_)⟩
  · rw [exec_stepDecryptSessionKey hs, decryptSessionKeyRule, hrec, hkd]
    rfl
  · rcases hempty with hnone | hnil | hzero
    · exact .inl hnone
    · exact .inr hnil
    · exact .inr ((congrArg (fun v => utf8Decode (leBytes v)) hzero).trans utf8Decode_leBytes_zero)

/-! ### VERIFY_SIGNATURE and VERIFY_HASH -/

/-- Settles O41: the rule compares `modpow` with the digest integer. -/
theorem verifySignatureCompletes : Obligations.VerifySignatureCompletes := by
  intro s hs hn
  rw [exec_stepVerifySignature hs, ← modpow_eq_pow_mod _ _ hn]
  rcases verifySignatureRule_cases s with ⟨heq, hr⟩ | ⟨hne, hr⟩ <;> rw [hr]
  · exact ⟨fun _ => rfl, absurd heq⟩
  · exact ⟨fun heq => absurd heq hne, fun _ => rfl⟩

/-- Settles O42: the rule compares the digest integer with the hash of the payload. -/
theorem verifyHashCompletes : Obligations.VerifyHashCompletes := by
  intro s hs
  rw [exec_stepVerifyHash hs]
  rcases verifyHashRule_cases s with ⟨heq, hr⟩ | ⟨hne, hr⟩ <;> rw [hr]
  · exact ⟨fun _ => rfl, absurd heq⟩
  · exact ⟨fun heq => absurd heq hne, fun _ => rfl⟩

/-! ### BUILD_RESPONSE -/

theorem Env.rngRaw_of_queue {e : Env} {k : BitVec 256} {q : List (BitVec 256)} (h : e.rngQueue = k :: q) :
    e.rngRaw = k := by
  rw [Env.rngRaw, h]

/-- Settles O43: the buffer is the one the frame is laid out in. -/
theorem buildResponseCompletes : Obligations.BuildResponseCompletes := by
  intro s hs k body
  rw [exec_stepBuildResponse hs]
  refine ⟨fun k' q => Env.rngRaw_of_queue, ?_⟩
  rcases buildResponseRule_cases k body s.rngTaken with ⟨hfits, hr⟩ | ⟨hlong, hr⟩
  · refine ⟨fun _ => ⟨Memory.ofBytes (frameBuild 0x32#8 body), Memory.read_ofBytes _, ?_⟩,
      fun hlong => absurd hlong hfits.not_gt⟩
    exact congrArg (fun r => Host.Outcome.next (s.rngTaken.finishStep r)) hr
  · refine ⟨fun hfits => absurd hfits hlong.not_ge, fun _ => ?_⟩
    exact congrArg (fun r => Host.Outcome.next (s.rngTaken.finishStep r)) hr

end Sys2Proof.Machine


namespace Sys2Proof.Machine

open Sys2Proof

/-! ### The keystream of a request's payload -/

/-- The keystream of the key data recovered (42_handshake.md R153, 41_counterstream.md R122). -/
def State.payloadStream (s : State) (i : Nat) : Nat :=
  encBlock s.env.protoVariant 64 (scheduleCells s.env.z 64 4 s.kdKey) (s.kdTod + i)

/-- The message the payload field decrypts to, and its width (41_counterstream.md R131). -/
def State.joinedPayload (s : State) : Nat × Nat :=
  joinFields (0, 0) (xorFields s.payloadStream 0 (split s.rqPl s.rqPlbits))

/-- The ranges step `DECRYPT_PAYLOAD` asks for (42_handshake.md R153). -/
def State.PayloadInRange (s : State) : Prop :=
  s.kdKey < 2 ^ 256 ∧ s.kdTod < 2 ^ 128 ∧ s.kdTod + (s.rqPlbits + 127) / 128 ≤ 2 ^ 128

/-- A key in range is loaded whole. -/
theorem loadPayload_key_toNat {s : State} (h : s.kdKey < 2 ^ 256) : s.loadPayload.key.toNat = s.kdKey :=
  Nat.mod_eq_of_lt h

/-- A timestamp in range is loaded whole. -/
theorem loadPayload_nonce_toNat {s : State} (h : s.kdTod < 2 ^ 128) : s.loadPayload.nonce.toNat = s.kdTod :=
  Nat.mod_eq_of_lt h

theorem loadPayload_protoStream {s : State} (hkey : s.kdKey < 2 ^ 256) (htod : s.kdTod < 2 ^ 128) :
    s.loadPayload.protoStream = s.payloadStream := by
  funext i
  rw [State.protoStream, loadPayload_key_toNat hkey, loadPayload_nonce_toNat htod]
  rfl

/-! ### DECRYPT_PAYLOAD -/

/-- The state whose stream has been decrypted to the message and width `pn`. -/
def State.payloadDecrypted (s : State) (pn : Nat × Nat) : State :=
  { s.loadPayload.protoKeyed with msg := pn.1, mlen := pn.2 }

/-- Register by register; with the key in range its schedule is that of the key data. -/
theorem payloadDecrypted_eq {s : State} (hkey : s.kdKey < 2 ^ 256) (pn : Nat × Nat) : s.payloadDecrypted pn =
    { s with
      key := BitVec.ofNat 256 s.kdKey, nonce := BitVec.ofNat 128 s.kdTod, cblk := split s.rqPl s.rqPlbits,
      cbn := (s.rqPlbits + 127) / 128, cfg := ⟨128, 256, s.env.protoVariant⟩,
      rk := scheduleCells s.env.z 64 4 s.kdKey, kvalid := true, msg := pn.1, mlen := pn.2 } := by
  rw [State.payloadDecrypted, protoKeyed_eq, loadPayload_key_toNat hkey, State.loadPayload, split_length]

theorem decodedPayload_payloadDecrypted (s : State) (pn : Nat × Nat) : decodedPayload (s.payloadDecrypted pn) =
    ((utf8Decode (leBytes pn.1)).bind s.env.parsePayload).elim (.error .payloadDecodeError) .ok :=
  decodedPayload_eq _

/-- The tests of the stream on the payload field: the counter, then the bit length. -/
theorem streamDecrypt_loadPayload {s : State} (hkey : s.kdKey < 2 ^ 256) (htod : s.kdTod < 2 ^ 128) :
    streamDecrypt (split s.rqPl s.rqPlbits) s.loadPayload =
      if 2 ^ 128 < s.kdTod + (s.rqPlbits + 127) / 128 then .error .domainError
      else (streamDec s.payloadStream (split s.rqPl s.rqPlbits)).map s.payloadDecrypted := by
  rw [streamDecrypt_eq, loadPayload_nonce_toNat htod, loadPayload_protoStream hkey htod, split_length]
  rfl

theorem decryptPayloadRule_of_not_inRange {s : State} (h : ¬s.PayloadInRange) :
    decryptPayloadRule s = .error .domainError := by
  rw [decryptPayloadRule]
  split
  · rfl
  · have hctr : 2 ^ 128 < s.kdTod + (s.rqPlbits + 127) / 128 := by
      rw [State.PayloadInRange] at h
      omega
    rw [streamDecrypt_loadPayload (by omega) (by omega), if_pos hctr]

/-- In range the stream decides first, then the message's text and structure. -/
theorem decryptPayloadRule_of_inRange {s : State} (h : s.PayloadInRange) :
    decryptPayloadRule s = (streamDec s.payloadStream (split s.rqPl s.rqPlbits)).bind fun pn =>
      ((utf8Decode (leBytes pn.1)).bind s.env.parsePayload).elim (.error .payloadDecodeError) fun p =>
        .ok { s.payloadDecrypted pn with
          adCanon := p.adCanon, adHash := p.adHash, sig := p.sig, hstate := .verifySignature } := by
  obtain ⟨hkey, htod, hctr⟩ := h
  rw [decryptPayloadRule, if_neg (by omega), streamDecrypt_loadPayload hkey htod, if_neg hctr.not_gt]
  cases streamDec s.payloadStream (split s.rqPl s.rqPlbits) with
  | error e => rfl
  | ok pn =>
    simp only [Except.map, Except.bind, decodedPayload_payloadDecrypted]
    cases (utf8Decode (leBytes pn.1)).bind s.env.parsePayload <;> rfl

theorem streamDec_payload_of_bits {s : State} (h : bitlen s.joinedPayload.1 = s.joinedPayload.2) :
    streamDec s.payloadStream (split s.rqPl s.rqPlbits) = .ok s.joinedPayload := if_pos h

theorem streamDec_payload_of_ne {s : State} (h : bitlen s.joinedPayload.1 ≠ s.joinedPayload.2) :
    streamDec s.payloadStream (split s.rqPl s.rqPlbits) = .error .framingError := if_neg h

/-- A payload field of no bits has no block, and its message is 0. -/
theorem joinedPayload_of_no_bits {s : State} (h : s.rqPlbits = 0) : s.joinedPayload = (0, 0) := by
  rw [State.joinedPayload, h]
  rfl

/-- Settles O40: the clauses are the rule's tests in their order; a payload field of no bits is the empty text. -/
theorem decryptPayloadCompletes : Obligations.DecryptPayloadCompletes := by
  intro s hs l rk ks pn payload inRange
  rw [exec_stepDecryptPayload hs]
  have hjoined : s.joinedPayload = pn := rfl
  have hrefused (hin : s.PayloadInRange) (hbits : bitlen s.joinedPayload.1 = s.joinedPayload.2)
      (hnone : (utf8Decode (leBytes s.joinedPayload.1)).bind s.env.parsePayload = none) :
      decryptPayloadRule s = .error .payloadDecodeError := by
    rw [decryptPayloadRule_of_inRange hin, streamDec_payload_of_bits hbits, Except.bind, hnone]
    rfl
  refine ⟨fun p hin hbits hp => ?_, fun hout => ?_, fun hin hbits => ?_, fun hin hbits hnone => ?_,
    fun hin hbits htext => ?_, fun hin hzero => ?_⟩
  · have hpayload : (utf8Decode (leBytes s.joinedPayload.1)).bind s.env.parsePayload = some p := hp
    rw [decryptPayloadRule_of_inRange hin, streamDec_payload_of_bits hbits, Except.bind, hpayload,
      payloadDecrypted_eq hin.1, hjoined, Option.elim_some, finishStep_ok]
  · rw [decryptPayloadRule_of_not_inRange hout, finishStep_error]
  · rw [decryptPayloadRule_of_inRange hin, streamDec_payload_of_ne hbits]
    rfl
  · rw [hrefused hin hbits hnone, finishStep_error]
  · rw [hrefused hin hbits (bind_parse_eq_none rfl htext), finishStep_error]
  · have hempty := joinedPayload_of_no_bits hzero
    have hbits : bitlen s.joinedPayload.1 = s.joinedPayload.2 := by rw [hempty, bitlen_zero]
    have htext : utf8Decode (leBytes s.joinedPayload.1) = some [] := by rw [hempty, utf8Decode_leBytes_zero]
    rw [hrefused hin hbits (bind_parse_eq_none rfl (.inr htext)), finishStep_error]

end Sys2Proof.Machine


namespace Sys2Proof.Machine

open Sys2Proof

/-! ### The turn of the sequencer -/

/-- The rule of the step `HSTATE` selects (42_handshake.md R146); in a waiting state nothing is written. -/
def State.turnRule (s : State) : Except WtError State :=
  match s.hstate with
  | .validateRequest => validateRequestRule s
  | .decryptSessionKey => decryptSessionKeyRule s
  | .decryptPayload => decryptPayloadRule s
  | .verifySignature => verifySignatureRule s
  | .verifyHash => verifyHashRule s
  | .buildResponse => buildResponseRule s.env.rngRaw (responseBody s.env s.env.rngRaw) s.rngTaken
  | .idle | .awaitRequest | .sent | .closed => .ok s

/-- The state a turn takes its error from: `BUILD_RESPONSE` has then used up its draw (log 4). -/
def State.turnBase (s : State) : State :=
  match s.hstate with
  | .buildResponse => s.rngTaken
  | _ => s

/-- A turn of the sequencer is the end of its rule, whatever the state. -/
theorem sequencerTurn_eq_finishStep (s : State) : sequencerTurn s = .next (s.turnBase.finishStep s.turnRule) := by
  rw [sequencerTurn_eq, State.turnRule, State.turnBase]
  cases hs : s.hstate with
  | validateRequest => exact exec_stepValidateRequest hs
  | decryptSessionKey => exact exec_stepDecryptSessionKey hs
  | decryptPayload => exact exec_stepDecryptPayload hs
  | verifySignature => exact exec_stepVerifySignature hs
  | verifyHash => exact exec_stepVerifyHash hs
  | buildResponse => exact exec_stepBuildResponse hs
  | idle | awaitRequest | sent | closed => rfl

/-- So is the step `HSTATE` selects. -/
theorem exec_selected {s : State} {i : Instr} (h : decode (.state s.hstate.code) = .ok i) :
    exec i s = .next (s.turnBase.finishStep s.turnRule) :=
  (sequencerTurn_of_ok h).symm.trans (sequencerTurn_eq_finishStep s)

/-! ### Along the chain -/

theorem Env.rngTaken_inbox (e : Env) : e.rngTaken.inbox = e.inbox := by
  unfold Env.rngTaken
  split <;> rfl

/-- What every turn leaves: the host's view and the pending events (42_handshake.md R146). -/
structure KeepsHostSide (s t : State) : Prop where
  res : t.res = s.res
  ill : t.ill = s.ill
  inbox : t.env.inbox = s.env.inbox

/-- A turn that succeeds goes on to the next state of the chain; one that does not raises an error of its step
(42_handshake.md R162, 60_exceptions.md R212). -/
theorem turnRule_cases (s : State) :
    (∃ t, s.turnRule = .ok t ∧ t.hstate = s.hstate.successor ∧ t.herr = s.herr ∧ KeepsHostSide s t) ∨
    (∃ e ∈ s.hstate.errors, s.turnRule = .error e) := by
  rw [State.turnRule]
  cases hs : s.hstate with
  | validateRequest =>
    rcases validateRequestRule_cases s with ⟨r, -, -, hr⟩ | ⟨-, hr⟩
    · exact .inl ⟨_, hr, rfl, rfl, rfl, rfl, rfl⟩
    · exact .inr ⟨_, List.mem_singleton_self _, hr⟩
  | decryptSessionKey =>
    rcases decryptSessionKeyRule_cases s with ⟨kd, -, hr⟩ | ⟨-, hr⟩
    · exact .inl ⟨_, hr, rfl, rfl, rfl, rfl, rfl⟩
    · exact .inr ⟨_, List.mem_singleton_self _, hr⟩
  | decryptPayload =>
    rcases decryptPayloadRule_cases s with ⟨u, p, -, -, -, -, hr⟩ | ⟨e, he, hr⟩
    · obtain ⟨m, n, q, ht⟩ := decryptPayloadRule_ok hr
      exact .inl ⟨_, hr.trans (congrArg Except.ok ht), rfl, rfl, rfl, rfl, rfl⟩
    · exact .inr ⟨e, he, hr⟩
  | verifySignature =>
    rcases verifySignatureRule_cases s with ⟨-, hr⟩ | ⟨-, hr⟩
    · exact .inl ⟨_, hr, rfl, rfl, rfl, rfl, rfl⟩
    · exact .inr ⟨_, List.mem_singleton_self _, hr⟩
  | verifyHash =>
    rcases verifyHashRule_cases s with ⟨-, hr⟩ | ⟨-, hr⟩
    · exact .inl ⟨_, hr, rfl, rfl, rfl, rfl, rfl⟩
    · exact .inr ⟨_, List.mem_singleton_self _, hr⟩
  | buildResponse =>
    rcases buildResponseRule_cases s.env.rngRaw (responseBody s.env s.env.rngRaw) s.rngTaken with ⟨-, hr⟩ | ⟨-, hr⟩
    · exact .inl ⟨_, hr, rfl, rfl, rfl, rfl, s.env.rngTaken_inbox⟩
    · exact .inr ⟨_, List.mem_singleton_self _, hr⟩
  | idle | awaitRequest | sent | closed => exact .inl ⟨s, rfl, hs, rfl, rfl, rfl, rfl⟩

theorem turnBase_keepsHostSide (s : State) : KeepsHostSide s s.turnBase := by
  rw [State.turnBase]
  split
  · exact ⟨rfl, rfl, s.env.rngTaken_inbox⟩
  · exact ⟨rfl, rfl, rfl⟩

/-- The two ways a turn can end. -/
theorem turn_cases (s : State) :
    let t := s.turnBase.finishStep s.turnRule
    ((t.hstate = s.hstate.successor ∧ t.herr = s.herr) ∨
      (t.hstate = .closed ∧ ∃ e ∈ s.hstate.errors, t.herr = some e)) ∧ KeepsHostSide s t := by
  rcases turnRule_cases s with ⟨t, ht, hstate, hherr, hkeeps⟩ | ⟨e, he, hr⟩
  · rw [ht, finishStep_ok]
    exact ⟨.inl ⟨hstate, hherr⟩, hkeeps⟩
  · obtain ⟨hres, hill, hinbox⟩ := turnBase_keepsHostSide s
    rw [hr, finishStep_error]
    exact ⟨.inr ⟨rfl, e, he, rfl⟩, hres, hill, hinbox⟩

/-- Settles O45: the step selected is the turn of the sequencer. -/
theorem sequencerFollowsTheChain : Obligations.SequencerFollowsTheChain := by
  intro s t i hi h
  obtain rfl := next_inj ((exec_selected hi).symm.trans h)
  obtain ⟨hend, hres, hill, -⟩ := turn_cases s
  exact ⟨hend, hres, hill⟩

/-! ### A session left to itself -/

/-- With no event pending a step goes along the chain or closes; a waiting state is its own successor. -/
theorem step_of_no_event {s : State} (h : s.env.inbox = []) :
    ∃ t, step s = .next t ∧ t.env.inbox = [] ∧ (t.hstate = s.hstate.successor ∨ t.hstate = .closed) := by
  obtain ⟨hend, -, -, hinbox⟩ := turn_cases s
  exact ⟨_, (step_of_inbox_nil h).trans (sequencerTurn_eq_finishStep s), hinbox.trans h, hend.imp And.left And.left⟩

theorem run_succ_of_step {M : Host.Core} {s t : M.State} (h : M.step s = .next t) (n : Nat) :
    M.run (n + 1) s = M.run n t := by
  rw [Host.Core.run, h]

/-- After `n` steps with no event pending the session is `n` states further along the chain, or closed. -/
theorem run_of_no_event (n : Nat) : ∀ s : State, s.env.inbox = [] →
    ∃ t : State, Host.Core.run Sys2Proof.core n s = .next t ∧
      (t.hstate = HState.successor^[n] s.hstate ∨ t.hstate = .closed) := by
  induction n with
  | zero => exact fun s _ => ⟨s, rfl, .inl rfl⟩
  | succ n ih =>
    intro s hs
    obtain ⟨u, hstep, hu, hnext⟩ := step_of_no_event hs
    obtain ⟨t, hrun, ht⟩ := ih u hu
    refine ⟨t, (run_succ_of_step (M := Sys2Proof.core) hstep n).trans hrun, ?_⟩
    rcases hnext with hnext | hnext <;> rw [hnext] at ht
    · exact ht
    · rw [Function.iterate_fixed rfl, or_self] at ht
      exact .inr ht

/-- The chain has six steps at most (42_handshake.md R162). -/
theorem HState.successor_six {x : HState} (h : x.seq = true) : successor^[6] x = .sent := by
  revert h
  cases x <;> decide

/-- Settles O46: six states further along the chain is `SENT`. -/
theorem sessionEndsInSixTurns : Obligations.SessionEndsInSixTurns := by
  intro s hinbox hseq
  obtain ⟨t, hrun, ht⟩ := run_of_no_event 6 s hinbox
  rw [HState.successor_six hseq] at ht
  exact ⟨t, hrun, ht⟩

/-! ### The host while the sequencer runs -/

/-- Only the word of `HS.ABORT` is that command (30_encoding.md R75). -/
theorem word_of_decode_hsAbort {w : BitVec 32} (h : decodeCommand w = .ok .hsAbort) : w = 0x3F000000#32 := by
  obtain ⟨-, henc⟩ := encode_of_decodeCommand h
  exact (Code.command.inj henc).symm.trans (by decide)

theorem HState.unitsFree_of_seq {x : HState} (h : x.seq = true) : x.unitsFree = false :=
  (Bool.or_eq_false_iff.mp (HState.frameWindow_of_seq h)).1

theorem HState.ne_awaitRequest_of_seq {x : HState} (h : x.seq = true) : x ≠ .awaitRequest := by
  rintro rfl
  cases h

/-- While the sequencer runs a command other than `HS.ABORT` is `NOP` or is rejected (30_encoding.md R79). -/
theorem exec_command_of_seq {s : State} (hseq : s.hstate.seq = true) {w : BitVec 32} {i : Instr}
    (hi : decodeCommand w = .ok i) (hw : w ≠ 0x3F000000#32) :
    exec i s = .next { s with res := .ok } ∨ exec i s = .next s.reject := by
  have hbusy := HState.unitsFree_of_seq hseq
  rcases decodeCommand_ok hi with
    rfl | ⟨bs, ks, var, rfl⟩ | rfl | rfl | rfl | rfl | rfl | rfl | rfl | rfl
  case inl => exact .inl rfl
  case inr.inl => exact .inr (exec_unitsCommand_rejected (.inr ⟨bs, ks, var, rfl⟩) hbusy)
  iterate 6 exact .inr (exec_unitsCommand_rejected (.inl (by decide)) hbusy)
  · exact .inr (exec_hsRx_rejected (HState.ne_awaitRequest_of_seq hseq))
  · exact absurd (word_of_decode_hsAbort hi) hw

/-- Settles O47: a read sets `rdata`, a write other than of `CMD` is dropped, a command is `NOP` or rejected. -/
theorem hostCannotDisturbASession : Obligations.HostCannotDisturbASession := by
  intro s t a hseq ha h
  cases a with
  | read n => exact ⟨_, _, _, next_inj h⟩
  | write w =>
    by_cases hcmd : ∃ c, w = .cmd c
    · obtain ⟨c, rfl⟩ := hcmd
      rcases serveCommand_cases c s with ⟨i, hi, hs⟩ | ⟨e, -, hs⟩
      · have hc : c ≠ 0x3F000000#32 := fun heq => ha (heq ▸ rfl)
        rcases exec_command_of_seq hseq hi hc with hexec | hexec <;>
          exact ⟨_, _, _, next_inj (hexec.symm.trans (hs.symm.trans h))⟩
      · exact ⟨_, _, _, next_inj (hs.symm.trans h)⟩
    · have hdrop := serveAccess_drop (s := s) (not_exists.mp hcmd) (.inl (inWindow_of_seq hseq (not_exists.mp hcmd)))
      exact ⟨_, _, _, next_inj (hdrop.symm.trans h)⟩

end Sys2Proof.Machine


namespace Sys2Proof.Machine

open Sys2Proof

/-! ### Steps and the host's view -/

section HostView

variable (s : State) (r : CmdResult) (ill : Bool) (v : RegValue)

theorem Env.rngTaken_withRdata (e : Env) (v : RegValue) :
    Env.rngTaken { e with rdata := v } = { e.rngTaken with rdata := v } := by
  simp only [Env.rngTaken]
  split <;> rfl

theorem withHostView_rngTaken : (s.withHostView r ill v).rngTaken = s.rngTaken.withHostView r ill v :=
  congrArg (fun e => ({ s with res := r, ill := ill, env := e } : State)) (s.env.rngTaken_withRdata v)

theorem withHostView_turnBase : (s.withHostView r ill v).turnBase = s.turnBase.withHostView r ill v := by
  simp only [State.turnBase, State.withHostView_hstate]
  split
  · exact withHostView_rngTaken s r ill v
  · rfl

/-- Decrypting a stream carries the host's view along. -/
theorem withHostView_streamDecrypt (l : List Block) :
    streamDecrypt l (s.withHostView r ill v) = (streamDecrypt l s).map fun t => t.withHostView r ill v := by
  have hstream : (s.withHostView r ill v).protoStream = s.protoStream := protoStream_congr rfl rfl rfl rfl
  rw [streamDecrypt_eq, streamDecrypt_eq, hstream, State.withHostView_nonce]
  split
  · rfl
  · cases streamDec s.protoStream l <;> rfl

theorem withHostView_decryptPayloadRule :
    decryptPayloadRule (s.withHostView r ill v) = (decryptPayloadRule s).map fun t => t.withHostView r ill v := by
  have hload : (s.withHostView r ill v).loadPayload = s.loadPayload.withHostView r ill v := rfl
  simp only [decryptPayloadRule, hload, withHostView_streamDecrypt, State.withHostView_kdKey, State.withHostView_kdTod,
    State.withHostView_rqPl, State.withHostView_rqPlbits]
  split
  · rfl
  · cases streamDecrypt (split s.rqPl s.rqPlbits) s.loadPayload with
    | error e => rfl
    | ok t =>
      have hdecoded : decodedPayload (t.withHostView r ill v) = decodedPayload t := rfl
      simp only [Except.map, hdecoded]
      cases decodedPayload t <;> rfl

/-- A turn's rule carries the host's view along: no step reads it and none writes it (42_handshake.md R146). -/
theorem withHostView_turnRule :
    (s.withHostView r ill v).turnRule = s.turnRule.map fun t => t.withHostView r ill v := by
  simp only [State.turnRule, State.withHostView_hstate]
  cases s.hstate with
  | validateRequest =>
    have hreq : receivedRequest (s.withHostView r ill v) = receivedRequest s := rfl
    simp only [validateRequestRule, hreq]
    cases receivedRequest s <;> rfl
  | decryptSessionKey =>
    have hkd : recoveredKeyData (s.withHostView r ill v) = recoveredKeyData s := rfl
    simp only [decryptSessionKeyRule, hkd]
    cases recoveredKeyData s <;> rfl
  | decryptPayload => exact withHostView_decryptPayloadRule s r ill v
  | verifySignature =>
    rcases verifySignatureRule_cases s with ⟨heq, hr⟩ | ⟨hne, hr⟩ <;> simp only [hr]
    · exact if_neg (not_not.mpr heq)
    · exact if_pos hne
  | verifyHash =>
    rcases verifyHashRule_cases s with ⟨heq, hr⟩ | ⟨hne, hr⟩ <;> simp only [hr]
    · exact if_neg (not_not.mpr heq)
    · exact if_pos hne
  | buildResponse =>
    simp only [withHostView_rngTaken]
    rcases buildResponseRule_cases s.env.rngRaw (responseBody s.env s.env.rngRaw) s.rngTaken with
      ⟨hfits, hr⟩ | ⟨hlong, hr⟩ <;> rw [hr]
    · exact if_neg hfits.not_gt
    · exact if_pos hlong
  | idle | awaitRequest | sent | closed => rfl

theorem withHostView_finishStep (x : Except WtError State) :
    (s.withHostView r ill v).finishStep (x.map fun t => t.withHostView r ill v) =
      (s.finishStep x).withHostView r ill v := by
  cases x <;> rfl

end HostView

/-- Settles O48: the step selected is the end of the turn's rule, and both carry the host's view along. -/
theorem stepsIgnoreTheHost : Obligations.StepsIgnoreTheHost := by
  intro s t i r ill v hi h
  obtain rfl := next_inj ((exec_selected hi).symm.trans h)
  have hi' : decode (.state (s.withHostView r ill v).hstate.code) = .ok i := hi
  rw [exec_selected hi', withHostView_turnBase, withHostView_turnRule, withHostView_finishStep]

/-! ### How the states follow each other -/

/-- The ways an instruction can change `HSTATE`: close, start a session, take the request in, or run the step `HSTATE`
selects to the next state of the chain (42_handshake.md R140, R162). -/
inductive Transition (i : Instr) (x : HState) : HState → Prop
  | close : Transition i x .closed
  | start : Transition i x .awaitRequest
  | receive : Transition i x .validateRequest
  | advance (h : decode (.state x.code) = .ok i) : Transition i x x.successor

theorem Answered.transition {i : Instr} {s t : State} (h : Answered s i t) (hne : t.hstate ≠ s.hstate) :
    Transition i s.hstate t.hstate := by
  cases h with
  | stepError | hsAbort | buildResponseError => exact .close
  | hsStart => exact .start
  | hsRx => exact .receive
  | validateRequest hs | decryptSessionKey hs | decryptPayload hs | verifySignature hs | verifyHash hs | buildResponse hs =>
    rw [hs]
    exact .advance rfl
  | _ => exact absurd rfl hne

theorem HState.successor_eq_verifyHash_iff {x : HState} : x.successor = .verifyHash ↔ x = .verifySignature := by
  cases x <;> decide

theorem HState.successor_eq_buildResponse_iff {x : HState} : x.successor = .buildResponse ↔ x = .verifyHash := by
  cases x <;> decide

theorem HState.successor_eq_sent_iff {x : HState} : x.successor = .sent ↔ x = .buildResponse ∨ x = .sent := by
  cases x <;> decide

theorem HState.successor_eq_idle_iff {x : HState} : x.successor = .idle ↔ x = .idle := by
  cases x <;> decide

/-- The states after the first verification are entered by the step of the state before (42_handshake.md R156, R162). -/
theorem Transition.selected {i : Instr} {x y : HState} (h : Transition i x y)
    (hy : y ∈ [HState.verifyHash, .buildResponse, .sent]) : x.successor = y ∧ decode (.state x.code) = .ok i := by
  cases h with
  | advance h => exact ⟨rfl, h⟩
  | _ => exact absurd hy (by decide)

/-- No transition enters `IDLE` (42_handshake.md R144). -/
theorem Transition.ne_idle {i : Instr} {x y : HState} (h : Transition i x y) (hne : y ≠ x) : y ≠ .idle := by
  cases h with
  | advance h =>
    intro hidle
    exact hne (hidle.trans (HState.successor_eq_idle_iff.mp hidle).symm)
  | _ => decide

/-- A signature step that does not close has found the signature valid (42_handshake.md R154). -/
theorem exec_stepVerifySignature_ok {s t : State} (hs : s.hstate = .verifySignature)
    (h : exec .stepVerifySignature s = .next t) (hopen : t.hstate ≠ .closed) :
    modpow s.sig s.pubE s.pubN = digestInt s.adCanon ∧ t = { s with sigok := true, hstate := .verifyHash } := by
  rw [exec_stepVerifySignature hs] at h
  rcases verifySignatureRule_cases s with ⟨heq, hr⟩ | ⟨-, hr⟩ <;> rw [hr] at h <;> obtain rfl := next_inj h
  · exact ⟨heq, rfl⟩
  · exact absurd rfl hopen

/-- A hash step that does not close has found the hash as transmitted (42_handshake.md R155). -/
theorem exec_stepVerifyHash_ok {s t : State} (hs : s.hstate = .verifyHash)
    (h : exec .stepVerifyHash s = .next t) (hopen : t.hstate ≠ .closed) :
    digestInt s.kdCanon = s.adHash ∧ t = { s with hashok := true, hstate := .buildResponse } := by
  rw [exec_stepVerifyHash hs] at h
  rcases verifyHashRule_cases s with ⟨heq, hr⟩ | ⟨-, hr⟩ <;> rw [hr] at h <;> obtain rfl := next_inj h
  · exact ⟨heq, rfl⟩
  · exact absurd rfl hopen

/-- Settles O49: each of the three states has one predecessor, whose step closes unless its check succeeds. -/
theorem responseNeedsBothVerifications : Obligations.ResponseNeedsBothVerifications := by
  intro i s t h hne
  have htr := (exec_answered h).transition hne
  refine ⟨fun ht => ?_, fun ht => ?_, fun ht => ?_, htr.ne_idle hne⟩ <;>
    obtain ⟨hnext, hi⟩ := htr.selected (by rw [ht]; decide) <;> rw [ht] at hnext
  · have hs := HState.successor_eq_verifyHash_iff.mp hnext
    rw [hs] at hi
    obtain rfl : Instr.stepVerifySignature = i := Except.ok.inj hi
    obtain ⟨hvalid, rfl⟩ := exec_stepVerifySignature_ok hs h (by rw [ht]; decide)
    exact ⟨rfl, hs, hvalid, rfl⟩
  · have hs := HState.successor_eq_buildResponse_iff.mp hnext
    rw [hs] at hi
    obtain rfl : Instr.stepVerifyHash = i := Except.ok.inj hi
    obtain ⟨hvalid, rfl⟩ := exec_stepVerifyHash_ok hs h (by rw [ht]; decide)
    exact ⟨rfl, hs, hvalid, rfl, rfl⟩
  · have hs := (HState.successor_eq_sent_iff.mp hnext).resolve_right fun hsent => hne (ht.trans hsent.symm)
    rw [hs] at hi
    exact ⟨(Except.ok.inj hi).symm, hs⟩

end Sys2Proof.Machine

namespace Sys2Proof.Machine

open Sys2Proof

/-! ### Little-endian bytes

A byte string is read as a list of digits in base 256, least significant first, so the library's facts about digits serve both
directions. -/

/-- The digits in base 256 that the bytes are. -/
def byteDigits (b : Bytes) : List Nat := b.map BitVec.toNat

theorem byteDigits_length (b : Bytes) : (byteDigits b).length = b.length := List.length_map _

theorem byteDigits_lt {b : Bytes} : ∀ d ∈ byteDigits b, d < 256 := by
  intro d hd
  obtain ⟨x, -, rfl⟩ := List.mem_map.mp hd
  exact x.isLt

theorem byteDigits_injective : Function.Injective byteDigits :=
  List.map_injective_iff.mpr fun _ _ => BitVec.eq_of_toNat_eq

theorem byteDigits_getLast?_ne_zero_iff (b : Bytes) :
    b.getLast? ≠ some 0 ↔ ∀ h : byteDigits b ≠ [], (byteDigits b).getLast h ≠ 0 := by
  rcases List.eq_nil_or_concat b with rfl | ⟨bs, x, rfl⟩
  · simp [byteDigits]
  · simp [byteDigits, ← BitVec.toNat_inj]

/-- `le_int` is the number its digits denote (43_external_primitives.md R173). -/
theorem leInt_eq_ofDigits (b : Bytes) : leInt b = Nat.ofDigits 256 (byteDigits b) := by
  induction b with
  | nil => rfl
  | cons x b ih => rw [leInt, ih, byteDigits, byteDigits, List.map_cons, Nat.ofDigits_cons]

/-- The last byte counts for `256 ^ length` (43_external_primitives.md R173). -/
theorem leInt_append_byte (b : Bytes) (x : Byte) : leInt (b ++ [x]) = leInt b + x.toNat * 256 ^ b.length := by
  rw [leInt_eq_ofDigits, leInt_eq_ofDigits, byteDigits, List.map_append, Nat.ofDigits_append, List.map_singleton,
    Nat.ofDigits_singleton, List.length_map, mul_comm]
  rfl

theorem leInt_lt (b : Bytes) : leInt b < 256 ^ b.length := by
  rw [leInt_eq_ofDigits, ← byteDigits_length b]
  exact Nat.ofDigits_lt_base_pow_length (by decide) byteDigits_lt

theorem leBytes_length (v : Nat) : (leBytes v).length = (bitlen v + 7) / 8 := by
  rw [leBytes, List.length_map, List.length_range]

/-- A number has as many digits in base 256 as whole bytes hold its bits. -/
theorem digits_length_eq_bytes (v : Nat) : (Nat.digits 256 v).length = (bitlen v + 7) / 8 := by
  rcases eq_or_ne v 0 with rfl | hv
  · rfl
  · rw [Nat.length_digits 256 v (by decide) hv, bitlen_of_ne_zero hv, Nat.log2_eq_log_two,
      show 256 = 2 ^ 8 by rfl, Nat.log_pow_left]
    omega

theorem leBytes_getD {v j : Nat} (hj : j < (leBytes v).length) :
    ((leBytes v).getD j 0).toNat = v / 2 ^ (8 * j) % 256 := by
  rw [List.getD_eq_getElem _ _ hj]
  simp [leBytes, Nat.shiftRight_eq_div_pow]

/-- `le_bytes` writes the digits of the number (43_external_primitives.md R172). -/
theorem byteDigits_leBytes (v : Nat) : byteDigits (leBytes v) = Nat.digits 256 v := by
  refine List.ext_getElem ?_ fun j hj hj' => ?_
  · rw [byteDigits_length, leBytes_length, digits_length_eq_bytes]
  · rw [byteDigits_length] at hj
    calc (byteDigits (leBytes v))[j] = ((leBytes v).getD j 0).toNat := by
          rw [List.getD_eq_getElem _ _ hj]
          exact List.getElem_map _
      _ = v / 256 ^ j % 256 := by rw [leBytes_getD hj, pow_mul, show 2 ^ 8 = 256 by rfl]
      _ = (Nat.digits 256 v)[j] := by
          rw [← Nat.getD_digits v j (by decide), List.getD_eq_getElem _ _ hj']

theorem leInt_leBytes (v : Nat) : leInt (leBytes v) = v := by
  rw [leInt_eq_ofDigits, byteDigits_leBytes, Nat.ofDigits_digits]

theorem leBytes_getLast?_ne_zero (v : Nat) : (leBytes v).getLast? ≠ some 0 := by
  rw [byteDigits_getLast?_ne_zero_iff, byteDigits_leBytes]
  exact fun h => Nat.getLast_digit_ne_zero 256 (Nat.digits_ne_nil_iff_ne_zero.mp h)

/-- `le_bytes` gives back exactly the byte strings that do not end in 0: the digits without leading zeros. -/
theorem leBytes_leInt_iff (b : Bytes) : leBytes (leInt b) = b ↔ b.getLast? ≠ some 0 := by
  constructor
  · intro h
    rw [← h]
    exact leBytes_getLast?_ne_zero _
  · intro h
    apply byteDigits_injective
    rw [byteDigits_leBytes, leInt_eq_ofDigits]
    exact Nat.digits_ofDigits 256 (by decide) _ byteDigits_lt ((byteDigits_getLast?_ne_zero_iff b).mp h)

theorem leInt_sha3_512_lt (b : Bytes) : leInt (sha3_512 b) < 2 ^ 512 :=
  calc leInt (sha3_512 b) < 256 ^ (sha3_512 b).length := leInt_lt _
    _ = 2 ^ 512 := by rw [sha3_512_length, show 256 = 2 ^ 8 by rfl, ← pow_mul]

/-- Settles O58: the bytes are the digits of the number in base 256. -/
theorem littleEndianBytes : Obligations.LittleEndianBytes :=
  ⟨fun v => ⟨leBytes_length v, fun _ => leBytes_getD, leInt_leBytes v, leBytes_getLast?_ne_zero v⟩, rfl,
    leInt_append_byte, fun b => ⟨sha3_512_length b, leInt_sha3_512_lt b⟩, fun b => ⟨leInt_lt b, leBytes_leInt_iff b⟩⟩

/-- Settles O59: square and multiply computes the power. -/
theorem modpowIsThePower : Obligations.ModpowIsThePower := fun b e _ => modpow_eq_pow_mod b e

end Sys2Proof.Machine

namespace Sys2Proof.Machine

open Sys2Proof

/-! ### UTF-8: texts and their forms -/

/-- The forms of a text at the front decode to it, whatever comes after them (43_external_primitives.md R174). -/
theorem utf8Decode_forms_append {t : Text} (ht : ∀ c ∈ t, isScalar c) (b : Bytes) :
    utf8Decode (t.flatMap utf8Form ++ b) = (utf8Decode b).map (t ++ ·) := by
  induction t with
  | nil => exact Option.map_id'.symm
  | cons c t ih =>
    obtain ⟨hc, ht⟩ := List.forall_mem_cons.mp ht
    rw [List.flatMap_cons, List.append_assoc, utf8Decode_form_append c hc, ih ht, Option.map_map]
    rfl

theorem utf8Decode_forms {t : Text} (ht : ∀ c ∈ t, isScalar c) : utf8Decode (t.flatMap utf8Form) = some t := by
  have h := utf8Decode_forms_append ht []
  rwa [List.append_nil, show utf8Decode [] = some [] from rfl, Option.map_some, List.append_nil] at h

/-- Bytes that decode are the forms of some text. A form is never empty, so what follows the first one is shorter. -/
theorem exists_forms_of_utf8Decode (b : Bytes) (h : utf8Decode b ≠ none) :
    ∃ t : Text, (∀ c ∈ t, isScalar c) ∧ b = t.flatMap utf8Form := by
  match b with
  | [] => exact ⟨[], by simp⟩
  | x :: b =>
    obtain ⟨c, rest, hc, hb⟩ := exists_form_of_utf8Decode x b h
    have hshort : rest.length < (x :: b).length := by
      rw [hb, List.length_append]
      exact Nat.lt_add_of_pos_left (utf8Form_length_pos c)
    have hrest : utf8Decode rest ≠ none := by
      rw [hb, utf8Decode_form_append c hc] at h
      exact fun hnone => h (by rw [hnone, Option.map_none])
    obtain ⟨t, ht, rfl⟩ := exists_forms_of_utf8Decode rest hrest
    exact ⟨c :: t, List.forall_mem_cons.mpr ⟨hc, ht⟩, hb⟩
termination_by b.length
decreasing_by exact hshort

/-- Decoding answers a text exactly on the forms of its scalar values (43_external_primitives.md R174). -/
theorem utf8Decode_eq_some_iff (b : Bytes) (t : Text) :
    utf8Decode b = some t ↔ (∀ c ∈ t, isScalar c) ∧ b = t.flatMap utf8Form := by
  constructor
  · intro h
    obtain ⟨u, hu, rfl⟩ := exists_forms_of_utf8Decode b (by simp [h])
    obtain rfl : u = t := Option.some.inj ((utf8Decode_forms hu).symm.trans h)
    exact ⟨hu, rfl⟩
  · rintro ⟨ht, rfl⟩
    exact utf8Decode_forms ht

theorem utf8Form_ascii {x : Byte} (h : x.toNat < 0x80) : utf8Form x.toNat = [x] := by
  rw [utf8Form, if_pos h, BitVec.ofNat_toNat, BitVec.setWidth_eq]

theorem forms_ascii {b : Bytes} (h : ∀ x ∈ b, x.toNat < 0x80) : (b.map BitVec.toNat).flatMap utf8Form = b := by
  induction b with
  | nil => rfl
  | cons x b ih =>
    obtain ⟨hx, hb⟩ := List.forall_mem_cons.mp h
    rw [List.map_cons, List.flatMap_cons, utf8Form_ascii hx, ih hb]
    rfl

theorem utf8Decode_ascii {b : Bytes} (h : ∀ x ∈ b, x.toNat < 0x80) : utf8Decode b = some (b.map BitVec.toNat) := by
  refine (utf8Decode_eq_some_iff _ _).mpr ⟨fun c hc => ?_, (forms_ascii h).symm⟩
  obtain ⟨x, hx, rfl⟩ := List.mem_map.mp hc
  have hlt := h x hx
  exact ⟨by omega, by omega⟩

/-! ### UTF-8: refused bytes -/

/-- What the byte that starts a character of more than one byte announces: its own range, the bytes to come, and that the next
one is a continuation byte. -/
theorem utf8Lead_announces {b need lo hi c : Nat} (h : utf8Lead b = some (need, lo, hi, c)) (hb : 0x80 ≤ b) :
    0xC2 ≤ b ∧ b ≤ 0xF4 ∧ 0x80 ≤ lo ∧ hi ≤ 0xBF ∧ 1 ≤ need ∧ (0xE0 ≤ b → 2 ≤ need) ∧ (0xF0 ≤ b → 3 ≤ need) := by
  unfold utf8Lead at h
  split_ifs at h
  · omega
  all_goals
    simp only [Option.some.injEq, Prod.mk.injEq] at h
    omega

theorem utf8Lead_eq_none {b : Nat} (hb : 0x80 ≤ b) (h : b < 0xC2 ∨ 0xF4 < b) : utf8Lead b = none := by
  cases hl : utf8Lead b with
  | none => rfl
  | some p =>
    obtain ⟨hlow, hhigh, -⟩ := utf8Lead_announces hl hb
    omega

theorem utf8Decode_cons_of_not_lead {x : Byte} (b : Bytes) (h : utf8Lead x.toNat = none) : utf8Decode (x :: b) = none := by
  simp only [utf8Decode, utf8Loop, h]

theorem utf8Decode_cons_of_lead {x : Byte} {need lo hi c : Nat} (b : Bytes)
    (h : utf8Lead x.toNat = some (need + 1, lo, hi, c)) : utf8Decode (x :: b) = utf8Loop (need + 1) lo hi c b := by
  simp only [utf8Decode, utf8Loop, h]

theorem utf8Loop_cons_of_out_of_range {need lo hi acc : Nat} {y : Byte} (b : Bytes) (h : ¬(lo ≤ y.toNat ∧ y.toNat ≤ hi)) :
    utf8Loop (need + 1) lo hi acc (y :: b) = none := by
  rw [utf8Loop, if_neg h]

/-- Bytes that end before the character does are refused. -/
theorem utf8Loop_of_short (b : Bytes) : ∀ need lo hi acc, b.length < need → utf8Loop need lo hi acc b = none := by
  induction b with
  | nil =>
    intro need lo hi acc h
    cases need with
    | zero => exact absurd h (Nat.lt_irrefl 0)
    | succ need => rw [utf8Loop]
  | cons x b ih =>
    intro need lo hi acc h
    obtain ⟨k, rfl⟩ := Nat.exists_eq_add_of_lt h
    rw [List.length_cons, utf8Loop]
    split_ifs with hrange hlast
    · omega
    · exact ih _ _ _ _ (by omega)
    · rfl

/-- A byte after a lead byte and outside the range announced is refused. -/
theorem utf8Decode_cons_cons_of_out_of_range {x y : Byte} {need lo hi c : Nat} (b : Bytes)
    (hx : utf8Lead x.toNat = some (need + 1, lo, hi, c)) (hy : ¬(lo ≤ y.toNat ∧ y.toNat ≤ hi)) :
    utf8Decode (x :: y :: b) = none :=
  (utf8Decode_cons_of_lead _ hx).trans (utf8Loop_cons_of_out_of_range b hy)

/-- A lead byte and what follows it are refused after any bytes: no character ranges into a lead byte. -/
theorem utf8Decode_append_eq_none {x : Byte} {b : Bytes} (hx : 0xC0 ≤ x.toNat) (h : utf8Decode (x :: b) = none) (a : Bytes) :
    utf8Decode (a ++ x :: b) = none := by
  refine utf8Loop_append_eq_none (x :: b) (fun need lo hi acc hhi => ?_) a 0 0 0 0 (by decide)
  cases need with
  | zero => exact h
  | succ need => exact utf8Loop_cons_of_out_of_range b (by omega)

/-- Bytes that do not decode are refused after bytes that do. -/
theorem utf8Decode_append_of_decoded {a b : Bytes} (ha : utf8Decode a ≠ none) (hb : utf8Decode b = none) :
    utf8Decode (a ++ b) = none := by
  obtain ⟨t, ht, rfl⟩ := exists_forms_of_utf8Decode a ha
  rw [utf8Decode_forms_append ht, hb, Option.map_none]

/-- A byte above ASCII that leads and is not followed by a continuation byte is refused. -/
theorem utf8Decode_cons_cons_of_not_continuation {x y : Byte} (b : Bytes) (hx : 0x80 ≤ x.toNat)
    (hy : y.toNat < 0x80 ∨ 0xC0 ≤ y.toNat) : utf8Decode (x :: y :: b) = none := by
  cases hl : utf8Lead x.toNat with
  | none => exact utf8Decode_cons_of_not_lead _ hl
  | some p =>
    obtain ⟨need, lo, hi, c⟩ := p
    obtain ⟨-, -, hlo, hhi, hneed, -⟩ := utf8Lead_announces hl hx
    obtain ⟨need, rfl⟩ := Nat.exists_eq_add_of_le' hneed
    exact utf8Decode_cons_cons_of_out_of_range b hl (by omega)

/-- A lead byte with fewer bytes after it than its character needs is refused. -/
theorem utf8Decode_cons_of_short {x : Byte} {b : Bytes} (hx : 0x80 ≤ x.toNat)
    (hb : b.length < 1 ∨ 0xE0 ≤ x.toNat ∧ b.length < 2 ∨ 0xF0 ≤ x.toNat ∧ b.length < 3) : utf8Decode (x :: b) = none := by
  cases hl : utf8Lead x.toNat with
  | none => exact utf8Decode_cons_of_not_lead _ hl
  | some p =>
    obtain ⟨need, lo, hi, c⟩ := p
    obtain ⟨-, -, -, -, hone, htwo, hthree⟩ := utf8Lead_announces hl hx
    obtain ⟨need, rfl⟩ := Nat.exists_eq_add_of_le' hone
    rw [utf8Decode_cons_of_lead b hl]
    exact utf8Loop_of_short b _ _ _ _ (by omega)

/-- A byte above the continuation bytes that leads nothing is refused wherever it stands. -/
theorem utf8Decode_append_not_lead {x : Byte} (hx : 0xC0 ≤ x.toNat) (h : x.toNat < 0xC2 ∨ 0xF4 < x.toNat) (a b : Bytes) :
    utf8Decode (a ++ x :: b) = none :=
  utf8Decode_append_eq_none hx (utf8Decode_cons_of_not_lead b (utf8Lead_eq_none (by omega) h)) a

/-- A lead byte before a byte outside the range it announces is refused wherever they stand. -/
theorem utf8Decode_append_out_of_range {x y : Byte} {need lo hi c : Nat} (hx : 0xC0 ≤ x.toNat)
    (hl : utf8Lead x.toNat = some (need + 1, lo, hi, c)) (hy : y.toNat < lo ∨ hi < y.toNat) (a b : Bytes) :
    utf8Decode (a ++ x :: y :: b) = none :=
  utf8Decode_append_eq_none hx (utf8Decode_cons_cons_of_out_of_range b hl (by omega)) a

/-- Settles O60: what decodes is a sequence of forms, and a refused character is refused whatever bytes come before it. -/
theorem utf8AcceptsExactlyWellFormed : Obligations.Utf8AcceptsExactlyWellFormed := by
  refine ⟨utf8Decode_eq_some_iff, fun b => utf8Decode_ascii, fun a b => ⟨?_, ?_⟩, fun a b x hx => ?_,
    fun a b y hy => ?_, fun a b y hy => ?_, fun a b y hy => ?_, fun a b y hy => ?_, fun a b x y hx hy => ?_,
    fun a b x ha hlo hhi => ?_, fun a b x hshort => ?_⟩
  · exact utf8Decode_append_not_lead (by decide) (by decide) a b
  · exact utf8Decode_append_out_of_range (x := 0xC3#8) (y := 0x28#8) (by decide) rfl (by decide) a b
  · rcases hx with rfl | rfl | hx
    · exact utf8Decode_append_not_lead (by decide) (by decide) a b
    · exact utf8Decode_append_not_lead (by decide) (by decide) a b
    · exact utf8Decode_append_not_lead (by omega) (by omega) a b
  · exact utf8Decode_append_out_of_range (x := 0xE0#8) (by decide) rfl (.inl hy) a b
  · exact utf8Decode_append_out_of_range (x := 0xF0#8) (by decide) rfl (.inl hy) a b
  · exact utf8Decode_append_out_of_range (x := 0xED#8) (by decide) rfl (.inr hy) a b
  · exact utf8Decode_append_out_of_range (x := 0xF4#8) (by decide) rfl (.inr hy) a b
  · exact utf8Decode_append_eq_none (by omega) (utf8Decode_cons_cons_of_not_continuation b (by omega) hy) a
  · exact utf8Decode_append_of_decoded ha (utf8Decode_cons_of_not_lead b (utf8Lead_eq_none hlo (by omega)))
  · exact utf8Decode_append_eq_none (by omega) (utf8Decode_cons_of_short (by omega) (by omega)) a

end Sys2Proof.Machine

namespace Sys2Proof.Machine

open Sys2Proof

/-! ### Taking an error -/

theorem takeError_command (s : State) (e : WtError) : s.takeError .command e = { s with res := .error e } := rfl

theorem takeError_sequencer (s : State) (e : WtError) :
    s.takeError .sequencer e = { s.discardFull with herr := some e, hstate := .closed } := rfl

/-- `DISCARD(full)` register by register: the session's registers, then its outputs (42_handshake.md R160). -/
theorem discardFull_eq (s : State) : s.discardFull =
    { s with
      key := 0, rk := List.replicate Config.numRounds 0, kvalid := false, nonce := 0, cbn := 0, cblk := [], rxlen := 0,
      rxbuf := [], rqSk := 0, rqPl := 0, rqPlbits := 0, kdKey := 0, kdTod := 0, kdCanon := [], adCanon := [], adHash := 0,
      sig := 0, msg := 0, mlen := 0, newkey := 0, txlen := 0, txbuf := [], txvalid := false } := rfl

/-- Settles O37: a command's error is its write of `RES`, a step's error is `DISCARD(full)` and the two registers of R197. -/
theorem takingAnError : Obligations.TakingAnError := by
  refine fun s e => ⟨takeError_command s e, ?_⟩
  rw [takeError_sequencer, discardFull_eq]

/-! ### What the host can learn by reading -/

theorem readReg_congr {s t : State} (h : ∀ r : Reg, r.read s = r.read t) (n : BitVec 5) : s.readReg n = t.readReg n := by
  cases hn : Reg.ofNumber n with
  | none => rw [readReg_of_reserved hn, readReg_of_reserved hn]
  | some r => rw [readReg_of_number hn, readReg_of_number hn, h r]

theorem read_writeOnly_congr {r : Reg} (h : r ∈ [Reg.cmd, .key, .privD, .rxlen, .rxbuf]) (s t : State) :
    r.read s = r.read t := by
  rw [read_of_writeOnly h, read_of_writeOnly h]

/-- Settles O54: the secrets with a number are write-only, the other secrets have no number, and every other register is the
same in both states. -/
theorem secretsAreNotReadable : Obligations.SecretsAreNotReadable := by
  intro s n key rk rxbuf kdCanon adCanon privD rxlen rqSk rqPl rqPlbits kdKey kdTod adHash sig todLast
  refine readReg_congr (fun r => ?_) n
  cases r with
  | key | privD | rxlen | rxbuf => exact read_writeOnly_congr (by decide) _ s
  | _ => rfl

end Sys2Proof.Machine

namespace Sys2Proof.Machine

open Sys2Proof

/-! ### No step stops the machine -/

/-- No instruction ends in a fault or a refusal: a rejection and an error are next states too (70_reset_and_hazards.md R234). -/
theorem exec_next (i : Instr) (s : State) : ∃ t, exec i s = .next t := by
  cases i with
  | _ => exact ⟨_, rfl⟩

theorem serveCommand_next (w : BitVec 32) (s : State) : ∃ t, serveCommand w s = .next t := by
  rcases serveCommand_cases w s with ⟨i, -, hi⟩ | ⟨e, -, he⟩
  · rw [hi]
    exact exec_next i s
  · exact ⟨_, he⟩

theorem serveAccess_next (a : HostAccess) (s : State) : ∃ t, serveAccess a s = .next t := by
  cases a with
  | read n => exact ⟨_, rfl⟩
  | write w =>
    cases w with
    | cmd c => exact serveCommand_next c s
    | _ => exact ⟨_, rfl⟩

theorem serveEvent_next (e : Event) (s : State) : ∃ t, serveEvent e s = .next t := by
  cases e with
  | host a => exact serveAccess_next a s
  | sequencer => exact ⟨_, sequencerTurn_eq_finishStep s⟩
  | reset => exact ⟨_, rfl⟩

/-- Settles O8: a step is the turn of the sequencer or serves one event, and each of these has a next state. -/
theorem stepNeverStops : Obligations.StepNeverStops := by
  intro s
  rcases step_cases s with ⟨-, hs⟩ | ⟨e, q, -, hs⟩ <;> rw [hs]
  · exact ⟨_, sequencerTurn_eq_finishStep s⟩
  · exact serveEvent_next e _

/-! ### A stale schedule -/

/-- `BC.ENC` works from the schedule and never looks at `KEY` (40_blockcipher.md R112): each of its three ends needs the same
of the state whatever `KEY` holds. -/
theorem exec_bcEnc_withKey {s t : State} (hfree : s.hstate = .idle ∨ s.hstate = .sent ∨ s.hstate = .closed)
    (h : exec .bcEnc s = .next t) (k : BitVec 256) : exec .bcEnc { s with key := k } = .next { t with key := k } := by
  obtain ⟨hok, herror, hreject⟩ := blockEncryptCompletes s hfree
  obtain ⟨hok', herror', hreject'⟩ := blockEncryptCompletes { s with key := k } hfree
  rcases blockRule_cases s.enc s with ⟨hk, hd, -⟩ | ⟨hk, -⟩ | ⟨hk, hd, -⟩
  · obtain rfl := next_inj ((hok hk hd).symm.trans h)
    exact hok' hk hd
  · obtain rfl := next_inj ((hreject hk).symm.trans h)
    exact hreject' hk
  · obtain rfl := next_inj ((herror hk hd).symm.trans h)
    exact herror' hk hd

/-- Settles O17: `KEY` is written in its window, and the schedule in force is not cleared by it (10_state.md R24). -/
theorem staleScheduleStays : Obligations.StaleScheduleStays := fun _ k hfree =>
  ⟨serveAccess_store nofun (HState.unitsFree_iff.mpr hfree) rfl, fun _ h => exec_bcEnc_withKey hfree h k⟩

end Sys2Proof.Machine
